-- ==== Sys2Proof/Word.lean ====
section
/-! DEFINITION. The words, numbers and small record shapes the BL12's rules speak of: local ports, pairs,
grades, sets of them, reaches, and the little arithmetic no rule of the spec could make wrong. -/

namespace Sys2Proof

/-- One payload byte of a frame. -/
abbrev Byte := BitVec 8
/-- A 16-bit counter of the record store or claim controller (section 7.3, R125). -/
abbrev Count16 := BitVec 16
/-- A local port number 0..11 (section 3.1 of the introduction). -/
abbrev PortId := Fin 12
/-- A BL12 station number 0..7 (section 3.1). -/
abbrev StationNo := Fin 8
/-- An echo channel number (Chapter 5). -/
abbrev ChannelId := Fin 2
/-- A global port number 0..95, `12 × station + local port` (section 3.1). -/
abbrev GlobalPort := Fin 96

/-- The four connector pairs of a port, in letter order. -/
inductive Pair where
  | A | B | C | D
  deriving DecidableEq, Repr

/-- Link grades, lowest first (Table 0-2). -/
inductive Grade where
  | G1 | G2 | G3 | G4
  deriving DecidableEq, Repr

/-- Timing roles (Table 1-1). -/
inductive Role where
  | source | follow
  deriving DecidableEq, Repr

/-- Role preferences of an offer page (Table 1-1, coded by Table 10-2). -/
inductive RolePref where
  | source | follow | either
  deriving DecidableEq, Repr

/-- Reach of a measurement (Table 0-6). -/
inductive Reach where
  | short | medium | long
  deriving DecidableEq, Repr

/-- Averaging counts N (Table 4-1). -/
inductive Averaging where
  | n1 | n2 | n4 | n8 | n16
  deriving DecidableEq, Repr

/-- Geometry strap (Table 11-1). -/
inductive Geometry where
  | singleRow | stacked
  deriving DecidableEq, Repr

/-- Population strap (Table 11-1). -/
inductive Population where
  | eight | twelve
  deriving DecidableEq, Repr

/-- One value for each of the four pairs of a port. -/
structure PerPair (α : Type) where
  a : α
  b : α
  c : α
  d : α
  deriving DecidableEq, Repr

/-- One value for each of the four sampling phases k = 0..3 (R91). -/
structure PerPhase (α : Type) where
  k0 : α
  k1 : α
  k2 : α
  k3 : α
  deriving DecidableEq, Repr

/-- One value for each reach. -/
structure PerReach (α : Type) where
  short : α
  medium : α
  long : α
  deriving DecidableEq, Repr

/-- A set of pairs. -/
abbrev PairSet := PerPair Bool

/-- A set of grades. -/
structure GradeSet where
  g1 : Bool
  g2 : Bool
  g3 : Bool
  g4 : Bool
  deriving DecidableEq, Repr

/-- A set of local ports: entry p says whether port p is a member. -/
abbrev PortSet := Vector Bool 12

def Pair.all : List Pair := [.A, .B, .C, .D]

def PerPair.get {α : Type} (v : PerPair α) : Pair → α
  | .A => v.a
  | .B => v.b
  | .C => v.c
  | .D => v.d

def PerPair.set {α : Type} (v : PerPair α) (p : Pair) (x : α) : PerPair α :=
  match p with
  | .A => { v with a := x }
  | .B => { v with b := x }
  | .C => { v with c := x }
  | .D => { v with d := x }

def PerPair.const {α : Type} (x : α) : PerPair α := ⟨x, x, x, x⟩

def PerPair.map {α β : Type} (f : α → β) (v : PerPair α) : PerPair β := ⟨f v.a, f v.b, f v.c, f v.d⟩

def PerPair.zip {α β γ : Type} (f : α → β → γ) (v : PerPair α) (w : PerPair β) : PerPair γ :=
  ⟨f v.a w.a, f v.b w.b, f v.c w.c, f v.d w.d⟩

def PerPair.ofFn {α : Type} (f : Pair → α) : PerPair α := ⟨f .A, f .B, f .C, f .D⟩

def PerPair.toList {α : Type} (v : PerPair α) : List α := [v.a, v.b, v.c, v.d]

def PerPhase.const {α : Type} (x : α) : PerPhase α := ⟨x, x, x, x⟩

def PerPhase.map {α β : Type} (f : α → β) (v : PerPhase α) : PerPhase β :=
  ⟨f v.k0, f v.k1, f v.k2, f v.k3⟩

def PerReach.get {α : Type} (v : PerReach α) : Reach → α
  | .short => v.short
  | .medium => v.medium
  | .long => v.long

def PairSet.none : PairSet := PerPair.const false
def PairSet.full : PairSet := PerPair.const true
def PairSet.members (s : PairSet) : List Pair := Pair.all.filter s.get
def PairSet.size (s : PairSet) : Nat := s.members.length
def PairSet.union (s t : PairSet) : PairSet := PerPair.zip (· || ·) s t
def PairSet.isEmpty (s : PairSet) : Bool := !(s.a || s.b || s.c || s.d)

def GradeSet.has (s : GradeSet) : Grade → Bool
  | .G1 => s.g1
  | .G2 => s.g2
  | .G3 => s.g3
  | .G4 => s.g4

def GradeSet.full : GradeSet := ⟨true, true, true, true⟩
def GradeSet.isEmpty (s : GradeSet) : Bool := !(s.g1 || s.g2 || s.g3 || s.g4)
def GradeSet.inter (s t : GradeSet) : GradeSet := ⟨s.g1 && t.g1, s.g2 && t.g2, s.g3 && t.g3, s.g4 && t.g4⟩

/-- The set that holds one grade. -/
def GradeSet.single (g : Grade) : GradeSet := ⟨g == .G1, g == .G2, g == .G3, g == .G4⟩

def PortSet.none : PortSet :=
  ⟨#[false, false, false, false, false, false, false, false, false, false, false, false], rfl⟩

def PortSet.has (s : PortSet) (p : PortId) : Bool := s[p.val]

def PortSet.insert (s : PortSet) (p : PortId) : PortSet := s.set p.val true p.isLt

/-- The twelve local ports in ascending order. -/
def allPorts : List PortId := [0, 1, 2, 3, 4, 5, 6, 7, 8, 9, 10, 11]

def PortSet.members (s : PortSet) : List PortId := allPorts.filter s.has

/-- The set of the ports that satisfy a test. -/
def PortSet.ofTest (f : PortId → Bool) : PortSet :=
  ⟨#[f 0, f 1, f 2, f 3, f 4, f 5, f 6, f 7, f 8, f 9, f 10, f 11], rfl⟩

end Sys2Proof
end

