-- ==== Sys2Proof/Syntax.lean ====
section
/-! DEFINITION. The commands of the BL12, one constructor for each row of spec/opcode_table.json, with the
operands the rules give the row. The table gives a row no bits, so an operand stands as what the rules call
it: a port, a pair, a frame's bytes, the samples of a capture. -/

namespace Sys2Proof

/-- The strap pins at the moment of a reset (R183). -/
structure Straps where
  station : StationNo
  population : Population
  geometry : Geometry
  deriving DecidableEq, Repr

/-- A partner offer page (Table 1-1). -/
structure OfferPage where
  grades : GradeSet
  pref : RolePref
  seed : BitVec 10
  ack : Bool
  deriving DecidableEq, Repr

/-- How a REQUEST frame reached the station: with destination 15 (R176) or with the station's own number;
and the payload bytes beyond those the request needs, which R173 disregards. -/
structure Via where
  broadcast : Bool
  extra : List Byte
  deriving DecidableEq, Repr

/-- The four ways in which a frame leaves the transmit list by the line (R147). -/
inductive Departure where
  | sent | voided | abandoned | discarded
  deriving DecidableEq, Repr

/-- The fields of a frame on the line as a receiver assembles them (Table 8-2). -/
structure RxFrame where
  kind : BitVec 4
  source : BitVec 4
  dest : BitVec 4
  payload : List Byte
  deriving DecidableEq, Repr

/-- Local pair A or B, of which one carries the partner's link signal after a legacy or forced entry (R32). -/
inductive ListenPair where
  | A | B
  deriving DecidableEq, Repr

/-- The analogue inputs of one capture window, one list for each sampled pair, oldest tick first (R92). -/
abbrev CaptureInput := PerPair (List Int)

/-- The captures of one port's calibration: for each pair and reach, the driven pair's inputs of the 64 shots in
the order they are fired (R185 step 2). -/
abbrev CalibrationInput := PerPair (PerReach (List (List Int)))

/-- The commands: every operation and event of the table. -/
inductive Instr where
  /-- Power-on reset (R183, R184, R189), with the straps it latches. -/
  | powerOnReset (straps : Straps)
  /-- Hard reset pin (R183, R184, R189), with the straps as they stand. -/
  | hardReset (straps : Straps)
  /-- Energy becomes present at a port (R3, R52); `atEntry` says that it does so at the same moment as the DORMANT
  entry just taken (R2). -/
  | energyAppears (p : PortId) (atEntry : Bool)
  /-- Energy becomes absent at a port (R3, R50, R52). -/
  | energyDisappears (p : PortId)
  /-- A symbol error from the fabric side (R15, R49). -/
  | symbolError (p : PortId)
  /-- An idle error from the fabric side (R15, R49). -/
  | idleError (p : PortId)
  /-- A margin dip from the fabric side (R49). -/
  | marginDip (p : PortId)
  /-- A loss of lock from the fabric side (R15, R51). -/
  | lossOfLock (p : PortId)
  /-- Energy has been present for 2 ms in DORMANT (R3). -/
  | energyWake (p : PortId)
  /-- The wake settle timer expires (R4). -/
  | settleExpiry (p : PortId)
  /-- The 8 ms repetition of the local offer page (R7). -/
  | offerPageSend (p : PortId)
  /-- An alternation interval expires (R8). -/
  | crossoverAlternation (p : PortId)
  /-- A partner offer page is received intact (R9). -/
  | offerPageHearing (p : PortId) (page : OfferPage)
  /-- 20 ms of partner G2 idle stream (R11). -/
  | legacyDetection (p : PortId)
  /-- The OFFERING limit (R12). -/
  | offeringLimit (p : PortId)
  /-- The 1 ms repetition of the identification patterns (R30). -/
  | identificationSend (p : PortId)
  /-- A pattern heard on local pair `on`, naming partner pair `letter` (R30). -/
  | identificationHearing (p : PortId) (on : Pair) (letter : Pair) (inverted : Bool)
  /-- Identification incomplete after 100 ms (R31). -/
  | identificationLimit (p : PortId)
  /-- The partner's signal has stood alone on a pair for 2 ms (R32). -/
  | pairQualifies (p : PortId) (on : ListenPair)
  /-- No pair qualified within 100 ms (R32). -/
  | crossingListenLimit (p : PortId)
  /-- The partner's IDENTIFIED marker (R33). -/
  | identifiedMarkerHeard (p : PortId)
  /-- The partner's PROBED marker (R33). -/
  | probedMarkerHeard (p : PortId)
  /-- The 1 ms repetition of the probes (R33). -/
  | probeLaunch (p : PortId)
  /-- A partner probe received on a pair (R33). -/
  | partnerProbe (p : PortId) (on : Pair)
  /-- A returned marker on a pair, `quarterTicks` after the local launch (R33). -/
  | probeReturn (p : PortId) (on : Pair) (quarterTicks : Nat)
  /-- The partner's DONE marker (R35). -/
  | doneMarkerHeard (p : PortId)
  /-- The RESOLVING limit (R14). -/
  | resolvingLimit (p : PortId)
  /-- The error-free timer reaches its target (R15). -/
  | errorFreeTarget (p : PortId)
  /-- The QUALIFYING limit (R15). -/
  | qualifyingLimit (p : PortId)
  /-- The backoff timer expires (R19). -/
  | backoffExpiry (p : PortId)
  /-- The watch window expires (R48). -/
  | windowExpiry (p : PortId)
  /-- Energy absent for 100 ms in UP (R52). -/
  | silence (p : PortId)
  /-- The drop settle timer of the drop path expires (R58). -/
  | dropSettleExpiry (p : PortId)
  /-- REQUEST kind 1 (R64), operand bytes as Table 10-1 orders them. -/
  | measure (via : Via) (port pairs reach averaging intrusive : Byte)
  /-- REQUEST kind 2 (R70). -/
  | sweep (via : Via) (portsHi portsLo reach averaging period : Byte)
  /-- The sweep period timer reaches the repeat period (R72). -/
  | sweepPeriodExpiry
  /-- REQUEST kind 3 with neither flag (R77); `other` are the flag byte's other positions. -/
  | cancel (via : Via) (port : Byte) (other : BitVec 6)
  /-- REQUEST kind 3 with the all flag and without the sweep flag (R78). -/
  | cancelAll (via : Via) (port : Byte) (other : BitVec 6)
  /-- REQUEST kind 3 with the sweep flag, with or without the all flag (R78). -/
  | cancelSweep (via : Via) (all : Bool) (port : Byte) (other : BitVec 6)
  /-- TRAIN sub-kind 0 (R23). -/
  | restart (via : Via) (port : Byte)
  /-- TRAIN sub-kind 1 (R23). -/
  | restartFull (via : Via) (port : Byte)
  /-- TRAIN sub-kind 2 (R24). -/
  | force (via : Via) (port grade : Byte)
  /-- TRAIN sub-kind 3 (R25). -/
  | offer (via : Via) (port grades pref : Byte)
  /-- TRAIN sub-kind 4 (R26). -/
  | enable (via : Via) (port : Byte)
  /-- TRAIN sub-kind 5 (R26). -/
  | disable (via : Via) (port : Byte)
  /-- RESET scope 0 (R28). -/
  | resetPort (via : Via) (port : Byte)
  /-- RESET scope 1 (R172). -/
  | resetStation (via : Via) (port : Byte)
  /-- QUERY kind 0 (R133). -/
  | querySummary (via : Via)
  /-- QUERY kind 1 (R178). -/
  | queryPort (via : Via) (port page : Byte)
  /-- QUERY kind 2 (R178). -/
  | queryCounters (via : Via) (port page : Byte)
  /-- QUERY kind 3 (R179). -/
  | queryDiagHead (via : Via) (port : Byte)
  /-- QUERY kind 4 (R179). -/
  | queryEcho (via : Via) (port pair index : Byte)
  /-- QUERY kind 5 (R44). -/
  | queryLength (via : Via) (port : Byte)
  /-- QUERY kind 6 (R180). -/
  | queryStation (via : Via) (page : Byte)
  /-- QUERY kind 7 (R181). -/
  | queryClaimEntry (via : Via) (index : Byte)
  /-- REQUEST kind 6 with any item number (R187); `operands` are the bytes after the item number. -/
  | setup (via : Via) (item : Byte) (operands : List Byte)
  /-- REQUEST kind 6 with item 1 + `index`: segment entry `index` (R187). -/
  | setupSegmentEntry (via : Via) (index : Fin 4) (port hi lo : Byte)
  /-- REQUEST kind 7 (R188). -/
  | lock (via : Via)
  /-- REQUEST kind 8 (R186). -/
  | calibrate (via : Via)
  /-- The intrusive drop settle of a channel expires (R86). -/
  | channelSettleExpiry (ch : ChannelId)
  /-- The channel's CLAIM frame leaves the list (R157, R88). -/
  | claimFrameDeparture (ch : ChannelId) (how : Departure)
  /-- The claim's hold-off ends (R89). -/
  | holdoffEnd (ch : ChannelId)
  /-- The yield limit ends (R90). -/
  | yieldLimit (ch : ChannelId)
  /-- 4 µs into a shot period (R93). -/
  | launchTrigger (ch : ChannelId)
  /-- A listen-gap sample of the driven pair (R94). -/
  | busyCheckFailure (ch : ChannelId) (sample : Int)
  /-- A shot's capture closes with these inputs (R92, R95). -/
  | captureClose (ch : ChannelId) (input : CaptureInput)
  /-- The distance unit returns a pair result (R103). -/
  | pairResultReturn (ch : ChannelId)
  /-- The last shot period ends (R95). -/
  | burstEnd (ch : ChannelId)
  /-- The channel's RELEASE frame leaves the list (R99). -/
  | releaseDeparture (ch : ChannelId) (how : Departure)
  /-- The budget window expires (R81). -/
  | budgetWindowExpiry
  /-- The pace interval has passed (R82). -/
  | paceIntervalPassed
  /-- A CLAIM of source `src` is taken (R155, R159). -/
  | claimTaken (src : BitVec 4) (number target priority duration : Byte)
  /-- A RELEASE of source `src` is taken (R161). -/
  | releaseTaken (src : BitVec 4) (number target : Byte)
  /-- A REJOIN of source `src` is taken (R162). -/
  | rejoinTaken (src : BitVec 4) (cause : Byte)
  /-- A view entry enters ACTIVE (R160). -/
  | viewEntryActive (station : StationNo) (number : Byte)
  /-- A view entry reaches its expiry (R160). -/
  | viewEntryExpiry (station : StationNo) (number : Byte)
  /-- The station starts its head frame (R139). -/
  | frameStart
  /-- Dominant read for recessive sent in byte 0 (R140). -/
  | arbitrationLoss
  /-- Dominant read for recessive sent after byte 0 (R141). -/
  | transmitFault
  /-- A receiver has read a frame up to the last bit of its check byte: the covered bytes, the check byte, and the level of
  the spacer after each covered byte, true recessive (R142). -/
  | receiveCheckFailure (bytes : List Byte) (check : Byte) (spacers : List Bool)
  /-- A good frame of the station's own source number that it did not send (R152). -/
  | ownNumberFrameTaken (kind dest : BitVec 4) (payload : List Byte)
  /-- A REPORT leaves the list (R147). -/
  | reportDeparture (how : Departure)
  /-- An ALERT leaves the list (R132). -/
  | alertDeparture (how : Departure)
  /-- A REJOIN leaves the list (R148). -/
  | rejoinDeparture (how : Departure)
  /-- The dominant run reaches 65 (R149). -/
  | stuckEntry
  /-- Eleven recessive bit times after STUCK (R151). -/
  | lineReturn
  /-- The return listen-in reaches 20 ms (R151). -/
  | returnListenInEnd
  /-- The listen timer reaches 20 ms (R184). -/
  | listenTimerExpiry
  /-- Calibration completes with these captures, by local port (R185). -/
  | calibrationDone (input : List CalibrationInput)
  /-- The setup window timer reaches 2 s (R188). -/
  | setupWindowExpiry
  /-- The idle count reaches 11 (R136). -/
  | lineIdle
  /-- A dominant bit outside a frame below idle count 11 (R136). -/
  | strayBit
  /-- A foreign frame ends, voided in its objection slot or not (R143, R144). -/
  | discardedFrame (frame : RxFrame) (voided : Bool)
  /-- REQUEST with any payload: the row for those that R173 answers BAD_KIND. -/
  | badKindRequest (broadcast : Bool) (payload : List Byte)
  /-- A partner G2 idle stream starts or breaks (R8, R11). -/
  | g2IdleStreamChange (p : PortId) (present : Bool)
  /-- The partner's link signal appears on or leaves pair A or B (R32). -/
  | partnerLinkSignalChange (p : PortId) (on : ListenPair) (present : Bool)
  deriving DecidableEq, Repr

end Sys2Proof
end

