-- ==== Sys2Proof/Decode.lean ====
section
/-! DEFINITION. What a word spells. spec/opcode_table.json gives no row of this part any bits: a command is an event or a
console request, never a word. So no word spells a command, whatever its length (assumption log 22). -/

namespace Sys2Proof

/-- The command that `nbits` bits of the table's kind spell: none, since the table gives its rows no bits. -/
def decodeTableWord (_nbits _w : Nat) : Option Instr := none

end Sys2Proof
end

