-- ==== Sys2Proof/Config.lean ====
section
/-! DEFINITION. The values the BL12's rules leave open, as constants with no body: nothing in Lean can evaluate
one or prove a value of it. Each is read at the state's draw counter, so that two draws are two values. -/

namespace Sys2Proof

/-- The seed the n-th draw gives: 0..1023 from the port's own pseudo-random source (R7). A free value
(assumption log 5). -/
opaque Config.seedDraw : Nat → BitVec 10

/-- The n-th draw of an alternation interval, in whole milliseconds above 50: 50..90 ms in all (R8). A free value
(assumption log 5). -/
opaque Config.alternationDraw : Nat → Fin 41

/-- Which channel is taken first when both enter BURSTING, or both enter CLAIMING out of PREPARING, in one step
(R125, R156: either may be). True: channel 1. A free value (assumption log 6). -/
opaque Config.channelOneFirst : Nat → Bool

end Sys2Proof
end

