-- ==== Sys2Proof/Machine/State.lean ====
section
/-! DEFINITION. The state of a BL12 station: every register, timer, list and flag the rules give it, block by block
(Table 0-1), the queue of commands that wait, and the state right after a power-on reset. -/

namespace Sys2Proof.Machine

/-- A timer of the reference clock, in µs. One that is frozen or suspended keeps its value (R8, R56, R186); what one that is stopped
for good holds is the model's choice (assumption log 38). -/
structure Timer where
  running : Bool
  elapsed : Nat
  limit : Nat
  deriving DecidableEq, Repr

/-- A timer that is stopped at 0: the reset value where the spec gives it, and else the model's choice (assumption logs 4, 38). -/
def Timer.off : Timer := ⟨false, 0, 0⟩

/-! ### Port context (Chapters 1 and 2) -/

/-- Training states, in the order of Table 1-1. -/
inductive TrainState where
  | offline | disabled | dormant | settling | offering | resolving | qualifying | up | backoff | held
  deriving DecidableEq, Repr

/-- The set of hold reasons (R20). -/
structure HoldReasons where
  channel : Bool
  settle : Bool
  await : Bool
  deriving DecidableEq, Repr

inductive Crossover where
  | straight | crossed
  deriving DecidableEq, Repr

inductive Health where
  | unknown | sound | faulty
  deriving DecidableEq, Repr

/-- The seven failure causes, in the order of Table 10-8. -/
inductive FailureCause where
  | noCommonGrade | offerTimeout | roleTie | resolveTimeout | skewLimit | pairMissing | qualifyTimeout
  deriving DecidableEq, Repr

/-- The eight drop causes, in the order of Table 10-8. -/
inductive DropCause where
  | symbolErrors | idleErrors | marginDips | energyLoss | lockLoss | silence | heldForMeasurement | console
  deriving DecidableEq, Repr

/-- The port context of Table 1-1 and the interlock state of Table 2-3. -/
structure Training where
  state : TrainState
  holds : HoldReasons
  consoleDisabled : Bool
  offerMask : GradeSet
  rolePref : RolePref
  forced : Option Grade
  downshift : Bool
  downshiftCheck : Bool
  seed : BitVec 10
  tieCount : Nat
  crossover : Crossover
  partner : Option OfferPage
  /-- Whether a partner page has been heard in the current attempt (R8, R11). -/
  pageHeard : Bool
  hearing : Nat
  accepted : Bool
  grade : Option Grade
  role : Option Role
  errorFree : Timer
  consecutive : Nat
  fourPair : Nat
  runAlerted : Bool
  health : PerPair Health
  lastFailure : Option FailureCause
  lastDrop : Option DropCause
  shadowed : Bool
  deriving DecidableEq, Repr

/-- The timers of Table 1-4 and section 2.2 and 2.3. -/
structure TrainTimers where
  wake : Timer
  settle : Timer
  offering : Timer
  pageRepeat : Timer
  alternation : Timer
  legacy : Timer
  resolving : Timer
  identify : Timer
  patternRepeat : Timer
  probeRepeat : Timer
  qualifyA : Timer
  qualifyB : Timer
  qualifying : Timer
  backoff : Timer
  deriving DecidableEq, Repr

/-- An identification record: the values last heard and the count 1..2 (R30). -/
structure IdRecord where
  letter : Pair
  inverted : Bool
  count : Nat
  deriving DecidableEq, Repr

/-- The result fields of Table 2-1 and the resolution progress of R29. -/
structure Resolution where
  abCrossed : Option Bool
  cdCrossed : Option Bool
  polarity : PerPair (Option Bool)
  qp : PerPair (Option Nat)
  skew : PerPair (Option Nat)
  missing : Option PairSet
  /-- RESOLVING was entered by legacy detection or at a forced grade (R32). -/
  listening : Bool
  ident : PerPair (Option IdRecord)
  /-- Identification is complete with a valid map; the IDENTIFIED marker is sent (R30). -/
  identified : Bool
  /-- The port probes (R33). -/
  probing : Bool
  /-- Pairs on which a probe of the latest launch is out. -/
  probesOut : PairSet
  /-- The PROBED marker is sent (R33). -/
  probedSent : Bool
  /-- The port's own checks have passed; the DONE marker is sent (R34, R35). -/
  checksPassed : Bool
  partnerIdentified : Bool
  partnerProbed : Bool
  partnerDone : Bool
  deriving DecidableEq, Repr

/-! ### Quality watch (Chapter 3) -/

inductive WatchCondition where
  | off | counting | suspended
  deriving DecidableEq, Repr

/-- The watch state of Table 3-2. -/
structure Watch where
  condition : WatchCondition
  window : Timer
  symbol : Nat
  idle : Nat
  margin : Nat
  silence : Timer
  dropSettle : Timer
  deriving DecidableEq, Repr

/-! ### Diagnosis records (Chapters 6 and 7) -/

inductive EchoClass where
  | openEnd | short | crossShort | highZ | lowZ | junction
  deriving DecidableEq, Repr

/-- An echo entry (Table 6-5). -/
structure Echo where
  distance : Nat
  amplitude : Int
  ratio : Int
  positive : Bool
  cls : EchoClass
  clamped : Bool
  junction : Option Nat
  partner : Option Pair
  deriving DecidableEq, Repr

/-- Pair verdicts, in the order of Table 7-1. -/
inductive Verdict where
  | good | openEnd | short | crossShort | mismatch | noLaunch | busy | notMeasured
  deriving DecidableEq, Repr

/-- A pair result of a diagnosis record (Table 7-1). -/
structure PairResult where
  verdict : Verdict
  distance : Option Nat
  launch : Option Int
  truncated : Bool
  echoes : List Echo
  deriving DecidableEq, Repr

/-- Origins of a measurement request, in the order of Table 4-1. -/
inductive Origin where
  | console | sweep | drop | downshift
  deriving DecidableEq, Repr

/-- The two outcomes that replace a record (R124). -/
inductive RecordOutcome where
  | complete | busyLine
  deriving DecidableEq, Repr

/-- A diagnosis record (Table 7-1). -/
structure Record where
  sequence : Count16
  origin : Origin
  outcome : RecordOutcome
  reach : Reach
  averaging : Averaging
  pairs : PerPair PairResult
  deriving DecidableEq, Repr

/-- Last attempt outcomes, in the order of Table 10-8. -/
inductive Attempt where
  | complete | busyLine | cancelled | portDisabled | skippedLinkUp | queueFull
  deriving DecidableEq, Repr

/-- The eight drop counters of a port (R60). -/
structure DropCounters where
  symbolErrors : Count16
  idleErrors : Count16
  marginDips : Count16
  energyLoss : Count16
  lockLoss : Count16
  silence : Count16
  heldForMeasurement : Count16
  console : Count16
  deriving DecidableEq, Repr

/-- What the record store keeps for one port (Table 7-5). -/
structure PortStore where
  record : Option Record
  attempt : Option Attempt
  drops : DropCounters
  deriving DecidableEq, Repr

/-! ### Port front end (Table 0-1) -/

/-- Resolution markers sent with the patterns (sections 2.2 and 2.3). -/
structure Markers where
  identified : Bool
  probed : Bool
  done : Bool
  deriving DecidableEq, Repr

/-- What a port's transmitter launches. -/
inductive LinkSignal where
  /-- The local offer page on the transmit pair (R7). -/
  | page (page : OfferPage) (on : Pair)
  /-- Identification patterns on the pairs of the grade, with the markers (R30, R33, R34). -/
  | patterns (pairs : PairSet) (markers : Markers)
  /-- Probes on these pairs (R33). -/
  | probes (pairs : PairSet)
  /-- The marker that returns a partner probe, this many quarter-ticks after its arrival (R33). -/
  | turnaround (on : Pair) (delay : Nat)
  /-- An echo pulse on the driven pair, of a width in ns (R92). -/
  | pulse (on : Pair) (width : Nat)
  /-- The link at a grade, sent on the pair that the A/B crossing assigns to transmit (R29, R32, Table 1-2). -/
  | link (grade : Grade) (on : Pair)
  deriving DecidableEq, Repr

/-- The port front end: what the partner's side of the line interface shows, the switch of the pairs to internal
termination, and (the model's own view of an output) the signals of the step that launched last, in their order. -/
structure FrontEnd where
  energy : Bool
  /-- A partner G2 idle stream, without offer pages, is being received (R11). -/
  g2Stream : Bool
  /-- The partner's link signal stands on local pair A (R32). -/
  signalA : Bool
  /-- The partner's link signal stands on local pair B (R32). -/
  signalB : Bool
  /-- The four pairs are switched to internal termination (R185, Table 0-1). -/
  terminated : Bool
  launched : List LinkSignal
  deriving DecidableEq, Repr

/-- Everything the station keeps for one port. -/
structure Port where
  front : FrontEnd
  train : Training
  timers : TrainTimers
  res : Resolution
  watch : Watch
  store : PortStore
  deriving DecidableEq, Repr

/-! ### Measurement scheduler (Chapter 4) -/

inductive Priority where
  | urgent | normal | background
  deriving DecidableEq, Repr

/-- A queue entry (Table 4-1); `holder` is none for WAITING. -/
structure Entry where
  target : PortId
  pairs : PairSet
  reach : Reach
  averaging : Averaging
  intrusive : Bool
  priority : Priority
  origin : Origin
  tag : Option Byte
  stamp : Nat
  holder : Option ChannelId
  deriving DecidableEq, Repr

/-- Sweep statuses, in the order of Table 4-2. -/
inductive SweepStatus where
  | none | running | waitingSpace | waitingPeriod | finished
  deriving DecidableEq, Repr

/-- The fields of a sweep record that a SWEEP request gives (Table 4-2). -/
structure SweepFields where
  ports : PortSet
  reach : Reach
  averaging : Averaging
  period : Nat
  deriving DecidableEq, Repr

/-- The sweep record (Table 4-2). -/
structure Sweep where
  status : SweepStatus
  tag : Byte
  fields : Option SweepFields
  cursor : Option PortId
  period : Timer
  deriving DecidableEq, Repr

/-- The budget state (Table 4-3); `pace` measures the pace interval since the last claim start (R82). -/
structure Budget where
  paced : Bool
  window : Timer
  shots : Nat
  paceLeft : Nat
  lastClaimStart : Option Nat
  pace : Timer
  pacePassed : Bool
  deriving DecidableEq, Repr

/-! ### Echo channels and claims (Chapters 5 and 9) -/

/-- Channel phases, in the order of Table 5-1. -/
inductive Phase where
  | idle | preparing | claiming | waitYield | bursting | releasing
  deriving DecidableEq, Repr

inductive StopOutcome where
  | cancelled | portDisabled | preempted | withdrawn
  deriving DecidableEq, Repr

/-- Where a shot period stands: its listen gap, the open capture after the launch, or after the capture (R92). -/
inductive ShotStage where
  | gap | capture | recovery
  deriving DecidableEq, Repr

/-- Local claim states, in the order of Table 9-2. -/
inductive ClaimState where
  | queued | holdoff | waitYield | active | releasing
  deriving DecidableEq, Repr

/-- A local claim (Table 9-2); the channel is the one whose field holds it. -/
structure LocalClaim where
  number : Byte
  state : ClaimState
  target : GlobalPort
  priority : Priority
  duration : Nat
  holdoff : Timer
  yieldTimer : Timer
  deriving DecidableEq, Repr

/-- The values a channel computes at pickup (R85). -/
structure Measurement where
  port : PortId
  target : GlobalPort
  planned : Nat
  duration : Nat
  deriving DecidableEq, Repr

/-- A working set of the distance unit (R103): the averaged samples of the driven pair and the listening pairs. -/
structure WorkingSet where
  port : PortId
  driven : Pair
  reach : Reach
  samples : PerPair (PerPhase (List Int))
  deriving DecidableEq, Repr

/-- Channel state (Table 5-1). The position of the shot in progress is computed from `launched` and `stage`. -/
structure Channel where
  phase : Phase
  meas : Option Measurement
  settle : Timer
  settled : Bool
  stop : Option StopOutcome
  sequence : Option Count16
  stage : ShotStage
  shot : Timer
  launched : Nat
  sums : PerPair (PerPhase (List Int))
  results : List (Pair × PairResult)
  working : Option WorkingSet
  claim : Option LocalClaim
  deriving DecidableEq, Repr

/-- A claim view entry (Table 9-3); `activeAt` and `expiry` are moments of the station's clock. -/
structure ViewEntry where
  station : StationNo
  number : Byte
  active : Bool
  target : GlobalPort
  priority : Priority
  duration : Nat
  activeAt : Nat
  expiry : Nat
  deriving DecidableEq, Repr

/-! ### Station line (Chapter 8) -/

/-- Kinds of the frames a station sends, lowest kind code first (Table 8-3). -/
inductive FrameKind where
  | rejoin | release | claim | report | alert
  deriving DecidableEq, Repr

/-- A frame of the transmit list. `channel` is the channel a CLAIM or RELEASE was placed for; `retried` marks
the second placement of a REJOIN (R148). -/
structure Frame where
  kind : FrameKind
  payload : List Byte
  channel : Option ChannelId
  retried : Bool
  deriving DecidableEq, Repr

inductive LineCondition where
  | idle | busy | stuck
  deriving DecidableEq, Repr

inductive Assembler where
  | waitIdle | ready | receiving
  deriving DecidableEq, Repr

/-- The station's own frame while it is being sent: its bits as Table 8-2 lays them out (true recessive), and the
position, counted from 1, of the bit that is being driven. -/
structure OnLine where
  frame : Frame
  bits : List Bool
  position : Nat
  deriving DecidableEq, Repr

/-- Line controller state (Table 8-1). `heard` is the frame being assembled, bit by bit from its start bit (true
recessive); `check` and `spacerFault` are its running check and its spacer fault mark. `objecting` is the model's own
view of an output: the station drives the objection slot that comes next dominant (R142). -/
structure Line where
  condition : LineCondition
  idleCount : Nat
  dominantRun : Nat
  listenIn : Timer
  assembler : Assembler
  list : List Frame
  onLine : Option OnLine
  duplicate : Bool
  heard : List Bool
  check : Byte
  spacerFault : Bool
  objecting : Bool
  deriving DecidableEq, Repr

/-- The six station counters (Table 7-3). -/
structure Counters where
  voided : Count16
  transmitFaults : Count16
  checkFailures : Count16
  arbitrationLosses : Count16
  overruns : Count16
  lockedRefusals : Count16
  deriving DecidableEq, Repr

/-- The event summary (Table 7-4). -/
structure Summary where
  linkUp : PortSet
  linkDown : PortSet
  diagDone : PortSet
  downshift : PortSet
  trainFailed : PortSet
  calFault : Bool
  selfLocked : Bool
  duplicate : Bool
  lineStuck : Bool
  overrun : Bool
  deriving DecidableEq, Repr

/-! ### Station controller (Chapter 11) -/

inductive StationPhase where
  | listen | calibrating | setup | run
  deriving DecidableEq, Repr

/-- REJOIN start causes, in the order of their codes (section 8.3). -/
inductive StartCause where
  | powerOn | hardReset | stationReset | lineReturn
  deriving DecidableEq, Repr

/-- A segment table entry (R111). -/
structure Segment where
  boundary : Nat
  cls : Nat
  junction : Bool
  deriving DecidableEq, Repr

/-- The five selectable watch criteria of a port (Table 3-1). -/
structure Criteria where
  symbolErrors : Bool
  idleErrors : Bool
  marginDips : Bool
  energyLoss : Bool
  lockLoss : Bool
  deriving DecidableEq, Repr

/-- The setup store (Table 11-3). -/
structure Setup where
  delay : Vector Nat 8
  segments : Vector (Vector Segment 4) 12
  criteria : Vector Criteria 12
  diagnose : PortSet
  alpha : Nat
  detect : Nat
  busy : Nat
  mismatch : Nat
  junctionLimit : Nat
  cross : Nat
  window : Nat
  thresholdE : Nat
  thresholdI : Nat
  thresholdM : Nat
  dropSettle : Nat
  wakeSettle : Nat
  autoReach : Reach
  autoAveraging : Averaging
  downshiftEnable : Bool
  downshiftAttempts : Nat
  skewLimit : Nat
  budgetWindow : Nat
  shotThreshold : Nat
  paceTime : Nat
  paceInterval : Nat
  deriving DecidableEq, Repr

/-- Calibration data of one port (R185). -/
structure PortCal where
  q0 : PerPair Nat
  templates : PerPair (PerReach (List Int))
  deriving DecidableEq, Repr

/-- Station controller state (Table 11-1); a port's calibration entry is none for an unpopulated port. -/
structure Station where
  number : StationNo
  population : Population
  geometry : Geometry
  phase : StationPhase
  listen : Timer
  cause : StartCause
  announced : Bool
  locked : Bool
  calibration : Option (Vector (Option PortCal) 12)
  calFaults : PortSet
  /-- How long calibration has run (R185); the port under calibration follows from it. -/
  calibrating : Timer
  window : Timer
  deriving DecidableEq, Repr

/-! ### The station -/

/-- The whole state. `now` counts the µs of the reference clock, `draws` numbers the free values read so far, `wire` is
what the other parties on STL drive in the bit times to come, released when it is empty (the model's own fields,
assumption log 1, 5, 6, 34), and `pending` is the queue of waiting commands, first in first out. -/
structure State where
  station : Station
  setup : Setup
  ports : Vector Port 12
  queue : List Entry
  arrival : Nat
  sweep : Sweep
  budget : Budget
  channels : Vector Channel 2
  claimCounter : Byte
  view : List ViewEntry
  unknownReleases : Count16
  line : Line
  counters : Counters
  sequence : Count16
  summary : Summary
  now : Nat
  draws : Nat
  wire : List Bool
  pending : List Instr
  deriving DecidableEq, Repr

/-- Why the machine stops with a fault. No rule of the spec makes the part stop, so no meaning raises one: the type
has no constructor. -/
inductive Fault where
  deriving DecidableEq, Repr

/-- Why a command has no meaning in the model. -/
inductive Refusal where
  /-- An arm of exec that is not modelled yet, by its mnemonic; raised by exec alone. Safe: the model stops where
  the hardware goes on. -/
  | notModelled (mnemonic : String)
  deriving DecidableEq, Repr

/-! ### Reset values -/

def HoldReasons.empty : HoldReasons := ⟨false, false, false⟩

/-- Table 1-5 and Table 2-6, power-on column. -/
def Training.fresh : Training :=
  { state := .offline, holds := HoldReasons.empty, consoleDisabled := false, offerMask := GradeSet.full
    rolePref := .either, forced := none, downshift := false, downshiftCheck := false, seed := 0
    tieCount := 0, crossover := .straight, partner := none, pageHeard := false, hearing := 0
    accepted := false, grade := none, role := none, errorFree := Timer.off, consecutive := 0
    fourPair := 0, runAlerted := false, health := PerPair.const .unknown, lastFailure := none
    lastDrop := none, shadowed := false }

def TrainTimers.fresh : TrainTimers :=
  { wake := Timer.off, settle := Timer.off, offering := Timer.off, pageRepeat := Timer.off
    alternation := Timer.off, legacy := Timer.off, resolving := Timer.off
    identify := Timer.off, patternRepeat := Timer.off, probeRepeat := Timer.off, qualifyA := Timer.off
    qualifyB := Timer.off, qualifying := Timer.off, backoff := Timer.off }

/-- Table 2-6: results absent and progress cleared. -/
def Resolution.fresh : Resolution :=
  { abCrossed := none, cdCrossed := none, polarity := PerPair.const none, qp := PerPair.const none
    skew := PerPair.const none, missing := none, listening := false, ident := PerPair.const none
    identified := false, probing := false, probesOut := PairSet.none, probedSent := false
    checksPassed := false, partnerIdentified := false, partnerProbed := false, partnerDone := false }

/-- Table 3-3. -/
def Watch.fresh : Watch :=
  { condition := .off, window := Timer.off, symbol := 0, idle := 0, margin := 0, silence := Timer.off
    dropSettle := Timer.off }

def DropCounters.zero : DropCounters := ⟨0, 0, 0, 0, 0, 0, 0, 0⟩

/-- Table 7-5. -/
def PortStore.fresh : PortStore := ⟨none, none, DropCounters.zero⟩

/-- A front end with nothing to hear, nothing launched, on the line interface. -/
def FrontEnd.quiet : FrontEnd := ⟨false, false, false, false, false, []⟩

/-- A front end as a reset leaves it: what the line shows stays as the line gives it, the pairs are on the line
interface, and nothing is launched. -/
def FrontEnd.afterReset (f : FrontEnd) : FrontEnd := { f with terminated := false, launched := [] }

/-- A port after a station-level reset: every block fresh, the front end's inputs as the line gives them. -/
def Port.fresh (front : FrontEnd) : Port :=
  { front := front.afterReset, train := Training.fresh, timers := TrainTimers.fresh
    res := Resolution.fresh, watch := Watch.fresh, store := PortStore.fresh }

/-- Table 4-4: the sweep record after a station-level reset. -/
def Sweep.fresh : Sweep := ⟨.none, 0, none, none, Timer.off⟩

/-- Table 4-4: the budget state after a station-level reset. -/
def Budget.fresh : Budget := ⟨false, Timer.off, 0, 0, none, Timer.off, false⟩

/-- Table 5-7. -/
def Channel.fresh : Channel :=
  { phase := .idle, meas := none, settle := Timer.off, settled := false, stop := none, sequence := none
    stage := .gap, shot := Timer.off, launched := 0, sums := PerPair.const (PerPhase.const [])
    results := [], working := none, claim := none }

/-- Table 8-6. -/
def Line.fresh : Line :=
  { condition := .busy, idleCount := 0, dominantRun := 0, listenIn := Timer.off, assembler := .waitIdle
    list := [], onLine := none, duplicate := false, heard := [], check := 0, spacerFault := false, objecting := false }

def Counters.zero : Counters := ⟨0, 0, 0, 0, 0, 0⟩

def Summary.empty : Summary :=
  ⟨PortSet.none, PortSet.none, PortSet.none, PortSet.none, PortSet.none, false, false, false, false, false⟩

def Segment.default : Segment := ⟨0, 0, false⟩

/-- Twelve equal values, one for each local port. -/
def perPort {α : Type} (x : α) : Vector α 12 := ⟨#[x, x, x, x, x, x, x, x, x, x, x, x], rfl⟩

/-- The defaults of Table 11-3. -/
def Setup.default : Setup :=
  { delay := ⟨#[5000, 5100, 5200, 5300, 5400, 5500, 5600, 5700], rfl⟩
    segments := perPort ⟨#[Segment.default, Segment.default, Segment.default, Segment.default], rfl⟩
    criteria := perPort ⟨true, false, false, true, false⟩
    diagnose := perPort true
    alpha := 6, detect := 48, busy := 96, mismatch := 8, junctionLimit := 24, cross := 32, window := 16
    thresholdE := 24, thresholdI := 16, thresholdM := 12, dropSettle := 2, wakeSettle := 1
    autoReach := .long, autoAveraging := .n4, downshiftEnable := true, downshiftAttempts := 3
    skewLimit := 40, budgetWindow := 250, shotThreshold := 8192, paceTime := 2, paceInterval := 50 }

/-- The listen interval of 20 ms, in µs (R169, R184). -/
def listenInterval : Nat := 20000

/-- Table 11-4, power-on column, with the straps latched. -/
def Station.powerOn (straps : Straps) : Station :=
  { number := straps.station, population := straps.population, geometry := straps.geometry
    phase := .listen, listen := ⟨true, 0, listenInterval⟩, cause := .powerOn, announced := false
    locked := false, calibration := none, calFaults := PortSet.none, calibrating := Timer.off
    window := Timer.off }

/-- The straps of `State.reset`: station 0, twelve ports, SINGLE_ROW (assumption log 3). -/
def Straps.atReset : Straps := ⟨0, .twelve, .singleRow⟩

/-- The machine right after a power-on reset, nothing to hear at any port or on STL (assumption log 3, 4, 34). -/
def State.reset : State :=
  { station := Station.powerOn Straps.atReset
    setup := Setup.default
    ports := perPort (Port.fresh FrontEnd.quiet)
    queue := []
    arrival := 0
    sweep := Sweep.fresh
    budget := Budget.fresh
    channels := ⟨#[Channel.fresh, Channel.fresh], rfl⟩
    claimCounter := 0
    view := []
    unknownReleases := 0
    line := Line.fresh
    counters := Counters.zero
    sequence := 0
    summary := Summary.empty
    now := 0
    draws := 0
    wire := []
    pending := [] }

end Sys2Proof.Machine
end

