-- ==== Sys2Proof/Machine/Operands.lean ====
section
/-! DEFINITION. Operand forms: how the bytes of requests, claims and reports code the values of the rules
(Tables 10-2 and 10-8, section 9.2), the adjustments of R174 and R187, and the plain readings of grades, sets and
global ports that every block shares. -/

namespace Sys2Proof.Machine

/-! ### Grades, averaging, global ports -/

/-- Grades G3 and G4 use all four pairs (section 3.1). -/
def fourPairGrade : Grade → Bool
  | .G1 => false
  | .G2 => false
  | .G3 => true
  | .G4 => true

/-- The pairs a grade uses (Table 0-2). -/
def gradePairs (g : Grade) : PairSet :=
  if fourPairGrade g then PairSet.full else ⟨true, true, false, false⟩

/-- The highest grade of a set (section 3.2). -/
def highestGrade (s : GradeSet) : Option Grade :=
  if s.g4 then some .G4 else if s.g3 then some .G3 else if s.g2 then some .G2
  else if s.g1 then some .G1 else none

/-- The grades left by downshift (R1). -/
def twoPairGrades : GradeSet := ⟨true, true, false, false⟩

/-- Averaging count N (Table 4-1). -/
def averagingCount : Averaging → Nat
  | .n1 => 1
  | .n2 => 2
  | .n4 => 4
  | .n8 => 8
  | .n16 => 16

/-- R65: the larger of two averaging counts. -/
def largerAveraging (a b : Averaging) : Averaging :=
  if averagingCount a ≤ averagingCount b then b else a

def reachRank : Reach → Nat
  | .short => 0
  | .medium => 1
  | .long => 2

/-- R65: the longer of two reaches, ordered SHORT, MEDIUM, LONG. -/
def longerReach (a b : Reach) : Reach :=
  if reachRank a ≤ reachRank b then b else a

/-- Capture window W in ticks (Table 0-6). -/
def captureWindow : Reach → Nat
  | .short => 256
  | .medium => 768
  | .long => 1536

/-- Pulse width in ns (R92). -/
def pulseWidth : Reach → Nat
  | .short => 4
  | .medium => 8
  | .long => 16

/-- Near-end blanking in quarter-ticks (Table 0-6). -/
def blanking : Reach → Nat
  | .short => 16
  | .medium => 32
  | .long => 64

/-- g = 12 × station + p (section 3.1, R154). -/
def globalOf (station : StationNo) (p : PortId) : GlobalPort :=
  ⟨12 * station.val + p.val, by omega⟩

/-- The population a strap gives: local ports below this number are populated (section 3.1). -/
def populationCount : Population → Nat
  | .eight => 8
  | .twelve => 12

def populated (pop : Population) (p : PortId) : Bool := decide (p.val < populationCount pop)

/-! ### Reading operand bytes -/

/-- A port operand 0..11 (check 7 of R173). -/
def portOf (b : Byte) : Option PortId :=
  if h : b.toNat < 12 then some ⟨b.toNat, h⟩ else none

/-- Reach coded 0..2 (Table 10-2). -/
def reachOf (b : Byte) : Option Reach :=
  if b = 0 then some .short else if b = 1 then some .medium else if b = 2 then some .long else none

/-- Role preference coded 0..2 (Table 10-2). -/
def rolePrefOf (b : Byte) : Option RolePref :=
  if b = 0 then some .source else if b = 1 then some .follow else if b = 2 then some .either else none

/-- Grade coded 1..4 (Table 10-2). -/
def gradeOf (b : Byte) : Option Grade :=
  if b = 1 then some .G1 else if b = 2 then some .G2 else if b = 3 then some .G3
  else if b = 4 then some .G4 else none

/-- Pair letter coded 0..3 (Table 10-8). -/
def pairOf (b : Byte) : Option Pair :=
  if b = 0 then some .A else if b = 1 then some .B else if b = 2 then some .C
  else if b = 3 then some .D else none

/-- A set byte, the first member at the least significant position (Table 10-2). -/
def pairSetOf (b : Byte) : PairSet := ⟨b.getLsbD 0, b.getLsbD 1, b.getLsbD 2, b.getLsbD 3⟩

def gradeSetOf (b : Byte) : GradeSet := ⟨b.getLsbD 0, b.getLsbD 1, b.getLsbD 2, b.getLsbD 3⟩

def criteriaOf (b : Byte) : Criteria :=
  ⟨b.getLsbD 0, b.getLsbD 1, b.getLsbD 2, b.getLsbD 3, b.getLsbD 4⟩

/-- A two-byte value, most significant byte first (Table 10-2). -/
def twoByteOf (hi lo : Byte) : Nat := 256 * hi.toNat + lo.toNat

/-- A two-byte port set; positions above port 11 are disregarded (R173). -/
def portSetOf (hi lo : Byte) : PortSet :=
  PortSet.ofTest (fun p => (hi ++ lo).getLsbD p.val)

/-- Claim priority coded 0..2 (R155). -/
def priorityOf (b : Byte) : Option Priority :=
  if b = 0 then some .urgent else if b = 1 then some .normal else if b = 2 then some .background else none

/-- Target global port 0..95 (R155). -/
def globalPortOf (b : Byte) : Option GlobalPort :=
  if h : b.toNat < 96 then some ⟨b.toNat, h⟩ else none

/-- A source number 0..7 (Table 8-4). -/
def stationOf (b : BitVec 4) : Option StationNo :=
  if h : b.toNat < 8 then some ⟨b.toNat, h⟩ else none

/-! ### Adjustments (R174, R187) -/

/-- Averaging rounded down to a power of two after clamping to 1..16 (R174). -/
def averagingOf (n : Nat) : Averaging :=
  if n < 2 then .n1 else if n < 4 then .n2 else if n < 8 then .n4 else if n < 16 then .n8 else .n16

/-- Whether R174 changes an averaging operand. -/
def averagingAdjusted (n : Nat) : Bool := averagingCount (averagingOf n) != n

/-- Clamping to lo..hi (section 5.1). -/
def clamp (lo hi n : Nat) : Nat := if n < lo then lo else if hi < n then hi else n

/-- Clamping and saturation of a signed value (section 5.1). -/
def clampInt (lo hi n : Int) : Int := if n < lo then lo else if hi < n then hi else n

/-! ### Writing report bytes (Table 10-2) -/

def byteOf (n : Nat) : Byte := BitVec.ofNat 8 n

/-- A two-byte unsigned value. -/
def wordBytes (n : Nat) : List Byte := [byteOf (n / 256), byteOf (n % 256)]

def count16Bytes (c : Count16) : List Byte := wordBytes c.toNat

/-- A one-byte signed value in two's complement. -/
def signedByte (n : Int) : Byte := BitVec.ofInt 8 n

/-- A two-byte signed value in two's complement. -/
def signedWordBytes (n : Int) : List Byte := wordBytes (BitVec.ofInt 16 n).toNat

/-- Absent fields (Table 10-2). -/
def absentByte : Byte := 255
def absentWord : List Byte := [255, 255]
def absentSignedByte : Byte := 128
def absentSignedWord : List Byte := [128, 0]

def optByte {α : Type} (f : α → Byte) : Option α → Byte
  | none => absentByte
  | some x => f x

def optWord {α : Type} (f : α → List Byte) : Option α → List Byte
  | none => absentWord
  | some x => f x

/-- One position per member, the first member at the least significant position. -/
def setByte : List Bool → Byte
  | [] => 0
  | b :: bs => (setByte bs) * 2 + (if b then 1 else 0)

def flagByte (b : Bool) : Byte := if b then 1 else 0

/-- The values "yes, no" of a field, by their position in the defining table (assumption log 9). -/
def yesNoByte (b : Bool) : Byte := if b then 0 else 1

def pairSetByte (s : PairSet) : Byte := setByte s.toList
def gradeSetByte (s : GradeSet) : Byte := setByte [s.g1, s.g2, s.g3, s.g4]

/-- The two bytes of a port set, the four positions above port 11 zero (R133). -/
def portSetBytes (s : PortSet) : List Byte :=
  [setByte [s.has 8, s.has 9, s.has 10, s.has 11],
   setByte [s.has 0, s.has 1, s.has 2, s.has 3, s.has 4, s.has 5, s.has 6, s.has 7]]

def gradeCode : Grade → Byte
  | .G1 => 1
  | .G2 => 2
  | .G3 => 3
  | .G4 => 4

def reachCode : Reach → Byte
  | .short => 0
  | .medium => 1
  | .long => 2

def rolePrefCode : RolePref → Byte
  | .source => 0
  | .follow => 1
  | .either => 2

def roleCode : Role → Byte
  | .source => 0
  | .follow => 1

def pairCode : Pair → Byte
  | .A => 0
  | .B => 1
  | .C => 2
  | .D => 3

def trainStateCode : TrainState → Byte
  | .offline => 0
  | .disabled => 1
  | .dormant => 2
  | .settling => 3
  | .offering => 4
  | .resolving => 5
  | .qualifying => 6
  | .up => 7
  | .backoff => 8
  | .held => 9

def healthCode : Health → Byte
  | .unknown => 0
  | .sound => 1
  | .faulty => 2

def failureCode : FailureCause → Byte
  | .noCommonGrade => 0
  | .offerTimeout => 1
  | .roleTie => 2
  | .resolveTimeout => 3
  | .skewLimit => 4
  | .pairMissing => 5
  | .qualifyTimeout => 6

def dropCode : DropCause → Byte
  | .symbolErrors => 0
  | .idleErrors => 1
  | .marginDips => 2
  | .energyLoss => 3
  | .lockLoss => 4
  | .silence => 5
  | .heldForMeasurement => 6
  | .console => 7

def attemptCode : Attempt → Byte
  | .complete => 0
  | .busyLine => 1
  | .cancelled => 2
  | .portDisabled => 3
  | .skippedLinkUp => 4
  | .queueFull => 5

def watchCode : WatchCondition → Byte
  | .off => 0
  | .counting => 1
  | .suspended => 2

def originCode : Origin → Byte
  | .console => 0
  | .sweep => 1
  | .drop => 2
  | .downshift => 3

def recordOutcomeCode : RecordOutcome → Byte
  | .complete => 0
  | .busyLine => 1

def verdictCode : Verdict → Byte
  | .good => 0
  | .openEnd => 1
  | .short => 2
  | .crossShort => 3
  | .mismatch => 4
  | .noLaunch => 5
  | .busy => 6
  | .notMeasured => 7

def echoClassCode : EchoClass → Byte
  | .openEnd => 0
  | .short => 1
  | .crossShort => 2
  | .highZ => 3
  | .lowZ => 4
  | .junction => 5

def priorityCode : Priority → Byte
  | .urgent => 0
  | .normal => 1
  | .background => 2

def stationPhaseCode : StationPhase → Byte
  | .listen => 0
  | .calibrating => 1
  | .setup => 2
  | .run => 3

def lineConditionCode : LineCondition → Byte
  | .idle => 0
  | .busy => 1
  | .stuck => 2

def phaseCode : Phase → Byte
  | .idle => 0
  | .preparing => 1
  | .claiming => 2
  | .waitYield => 3
  | .bursting => 4
  | .releasing => 5

def claimStateCode : ClaimState → Byte
  | .queued => 0
  | .holdoff => 1
  | .waitYield => 2
  | .active => 3
  | .releasing => 4

def sweepStatusCode : SweepStatus → Byte
  | .none => 0
  | .running => 1
  | .waitingSpace => 2
  | .waitingPeriod => 3
  | .finished => 4

/-- Start cause byte of a REJOIN (section 8.3). -/
def startCauseCode : StartCause → Byte
  | .powerOn => 0
  | .hardReset => 1
  | .stationReset => 2
  | .lineReturn => 3

/-- Kind codes of Table 8-3. -/
def frameKindCode : FrameKind → Nat
  | .rejoin => 0
  | .release => 1
  | .claim => 2
  | .report => 5
  | .alert => 6

end Sys2Proof.Machine
end

