-- ==== Sys2Proof/Machine/Distance.lean ====
section
/-! DEFINITION. The distance unit (Chapter 6) and the sample arithmetic of the channels it shares with calibration
(R92, R95, R105, R185): from captured samples to a pair's classified result. Pure functions of their inputs (R103). -/

namespace Sys2Proof.Machine

/-! ### Samples, sums and averages (R92, R95, R105) -/

/-- The digitizer's output: −2048..2047, the end value for any input beyond it (R92). -/
def digitize (x : Int) : Int := clampInt (-2048) 2047 x

/-- The W samples of one capture of one pair; an input list shorter than W stands for zero input at the remaining ticks
(assumption log 15). -/
def captureSamples : Nat → List Int → List Int
  | 0, _ => []
  | n + 1, [] => 0 :: captureSamples n []
  | n + 1, x :: xs => digitize x :: captureSamples n xs

/-- The sampling phase of the shot in slot 0..3 of a repetition: 0, 2, 1, 3 (R91). -/
def slotPhase (slot : Nat) : Nat :=
  if slot = 0 then 0 else if slot = 1 then 2 else if slot = 2 then 1 else 3

/-- Adds a capture to a sum vector, position by position. -/
def addSamples (sums samples : List Int) : List Int := List.zipWith (· + ·) sums samples

/-- Applies a function to the vector of phase k. -/
def updatePhase {α : Type} (v : PerPhase α) (k : Nat) (f : α → α) : PerPhase α :=
  if k = 0 then { v with k0 := f v.k0 } else if k = 1 then { v with k1 := f v.k1 }
  else if k = 2 then { v with k2 := f v.k2 } else { v with k3 := f v.k3 }

/-- Sum vectors of W zeros for each phase. -/
def zeroSums (w : Nat) : PerPhase (List Int) := PerPhase.const (List.replicate w 0)

/-- The averages of sums: every sum divided by N, truncating toward zero (R95). -/
def averageSums (n : Nat) (sums : PerPhase (List Int)) : PerPhase (List Int) :=
  sums.map (List.map (fun x => Int.tdiv x n))

/-- Interleaves four lists, position by position. -/
def interleaveLists : List Int → List Int → List Int → List Int → List Int
  | a :: as, b :: bs, c :: cs, d :: ds => a :: b :: c :: d :: interleaveLists as bs cs ds
  | _, _, _, _ => []

/-- The interleaved record: s_k(t) at quarter-tick q = 4t + k (R105). -/
def interleave (s : PerPhase (List Int)) : List Int := interleaveLists s.k0 s.k1 s.k2 s.k3

/-! ### Residual and launch amplitude (R106, R107) -/

/-- The record less the template at the first 128 quarter-ticks (R106). -/
def residual : List Int → List Int → List Int
  | s :: ss, t :: ts => (s - t) :: residual ss ts
  | ss, _ => ss

/-- The greatest value of a list; 0 for none. -/
def greatest : List Int → Int
  | [] => 0
  | x :: xs => xs.foldl max x

/-- A_L: the largest value of s(q) over q = Q0 .. Q0 + 15 (R107). -/
def launchAmplitude (record : List Int) (q0 : Nat) : Int := greatest ((record.drop q0).take 16)

/-! ### Detection (R108, R109) -/

/-- A detected echo: its arrival and its signed peak. -/
structure RawEcho where
  arrival : Nat
  peak : Int
  deriving DecidableEq, Repr

/-- R108 steps 1 to 5, from quarter-tick q on with the run in progress, if any. -/
def scanEchoes (thr : Nat) : List Int → Nat → Option RawEcho → List RawEcho
  | [], _, none => []
  | [], _, some run => [run]
  | r :: rs, q, none =>
      if thr ≤ r.natAbs then scanEchoes thr rs (q + 1) (some ⟨q, r⟩)
      else scanEchoes thr rs (q + 1) none
  | r :: rs, q, some run =>
      if thr / 2 ≤ r.natAbs ∧ (0 < r ↔ 0 < run.peak) then
        scanEchoes thr rs (q + 1) (some (if run.peak.natAbs < r.natAbs then ⟨run.arrival, r⟩ else run))
      else if thr ≤ r.natAbs then run :: scanEchoes thr rs (q + 1) (some ⟨q, r⟩)
      else run :: scanEchoes thr rs (q + 1) none

/-- The echoes of a residual from quarter-tick `start` to the end of the record (R108). -/
def detectEchoes (thr start : Nat) (r : List Int) : List RawEcho := scanEchoes thr (r.drop start) start none

/-! ### Time and distance (R110 to R113) -/

/-- One-way time in ps of an arrival: (Q − Q0) × 250, or 0 (R110). -/
def oneWayTime (q q0 : Nat) : Nat := (q - q0) * 250

/-- A populated segment as the walk reads it: its index, length in dm, delay in ps/m and boundary (R111). -/
structure Stretch where
  index : Nat
  length : Nat
  delay : Nat
  boundary : Nat
  junction : Bool
  deriving DecidableEq, Repr

/-- The delay of a class, in ps/m (R111). -/
def delayOf (delays : Vector Nat 8) (cls : Nat) : Nat := delays.toList.getD cls 0

/-- The populated segments of a table in index order, given the boundary before (R111). -/
def stretchesFrom (delays : Vector Nat 8) : Nat → Nat → List Segment → List Stretch
  | _, _, [] => []
  | i, before, s :: ss =>
      let rest := stretchesFrom delays (i + 1) s.boundary ss
      if before < s.boundary then
        ⟨i, s.boundary - before, delayOf delays s.cls, s.boundary, s.junction⟩ :: rest
      else rest

def stretches (delays : Vector Nat 8) (table : Vector Segment 4) : List Stretch :=
  stretchesFrom delays 0 0 table.toList

/-- The walk over the populated segments from distance d with `rem` tenths of a ps left and the delay `last` in force
beyond them (R112). A segment takes exactly length × delay tenths of a ps, so the walk truncates once, at its end. -/
def walkFrom : Nat → Nat → Nat → List Stretch → Nat
  | d, rem, last, [] => d + rem / last
  | d, rem, _, s :: ss =>
      if rem < s.length * s.delay then d + rem / s.delay
      else walkFrom (d + s.length) (rem - s.length * s.delay) s.delay ss

/-- The segment walk over a time t in ps (R112). Where no segment is populated, the delay is that of the class of entry 0. -/
def segmentWalk (delays : Vector Nat 8) (table : Vector Segment 4) (t : Nat) : Nat :=
  walkFrom 0 (10 * t) (delayOf delays table[0].cls) (stretches delays table)

/-- The clamp of R113: the distance and whether it was clamped. -/
def clampDistance (d : Nat) : Nat × Bool := if 4095 < d then (4095, true) else (d, false)

/-- The walk and its clamp. -/
def walkDistance (delays : Vector Nat 8) (table : Vector Segment 4) (t : Nat) : Nat × Bool :=
  clampDistance (segmentWalk delays table t)

/-! ### Amplitude and ratio (R114, R115) -/

/-- Compensated amplitude A_c (R114). -/
def compensated (alpha d : Nat) (peak : Int) : Int :=
  clampInt (-2047) 2047 (Int.tdiv (peak * (256 + (alpha * d / 16 : Nat))) 256)

/-- Ratio ρ in units of 1/64 (R115). -/
def ratioOf (ac launch : Int) : Int := clampInt (-64) 64 (Int.tdiv (ac * 64) launch)

/-! ### Building the echo list (R116 to R121) -/

/-- An echo of the working list: arrival, peak, distance and clamp, amplitude and ratio. -/
structure WorkEcho where
  arrival : Nat
  peak : Int
  distance : Nat
  clamped : Bool
  amplitude : Int
  ratio : Int
  deriving DecidableEq, Repr

/-- The settings and calibration data one pair is processed with (Table 6-1). -/
structure EchoSettings where
  delays : Vector Nat 8
  table : Vector Segment 4
  alpha : Nat
  detect : Nat
  mismatch : Nat
  junctionLimit : Nat
  cross : Nat
  deriving DecidableEq, Repr

/-- Distance, amplitude and ratio of a raw echo (R110 to R115). -/
def weighEcho (st : EchoSettings) (q0 : Nat) (launch : Int) (e : RawEcho) : WorkEcho :=
  let d := walkDistance st.delays st.table (oneWayTime e.arrival q0)
  let ac := compensated st.alpha d.1 e.peak
  ⟨e.arrival, e.peak, d.1, d.2, ac, ratioOf ac launch⟩

/-- R116: the echoes whose ratio is at least the mismatch threshold in magnitude. -/
def discardWeak (st : EchoSettings) (l : List WorkEcho) : List WorkEcho :=
  l.filter (fun e => decide (st.mismatch ≤ e.ratio.natAbs))

/-- The kept echo after a merge: its own arrival, distance and clamp, the greater peak, and A_c and ρ recomputed (R117). -/
def mergeEchoes (st : EchoSettings) (launch : Int) (kept later : WorkEcho) : WorkEcho :=
  if kept.peak.natAbs < later.peak.natAbs then
    let ac := compensated st.alpha kept.distance later.peak
    { kept with peak := later.peak, amplitude := ac, ratio := ratioOf ac launch }
  else kept

/-- R117 over the echoes after the most recent kept one. -/
def mergeFrom (st : EchoSettings) (launch : Int) : WorkEcho → List WorkEcho → List WorkEcho
  | kept, [] => [kept]
  | kept, e :: es =>
      if e.distance < kept.distance + 5 then mergeFrom st launch (mergeEchoes st launch kept e) es
      else kept :: mergeFrom st launch e es

def mergeClose (st : EchoSettings) (launch : Int) : List WorkEcho → List WorkEcho
  | [] => []
  | e :: es => mergeFrom st launch e es

/-- |D − B| in dm. -/
def apart (d b : Nat) : Nat := (d - b) + (b - d)

/-- The junction-expected boundary within 15 dm of a distance: the nearest, at equal difference the lower index (R118). -/
def nearestJunction (d : Nat) : List Stretch → Option Stretch
  | [] => none
  | s :: ss =>
      let rest := nearestJunction d ss
      if s.junction ∧ apart d s.boundary ≤ 15 then
        match rest with
        | none => some s
        | some t => if apart d t.boundary < apart d s.boundary then some t else some s
      else rest

/-- |ρ_Y| of the best qualifying echo of a listening pair, if one qualifies (R119). -/
def crossRatio (st : EchoSettings) (launch : Int) (e : WorkEcho) : List RawEcho → Option Nat
  | [] => none
  | y :: ys =>
      let rest := crossRatio st launch e ys
      let rho := (ratioOf (compensated st.alpha e.distance y.peak) launch).natAbs
      if apart y.arrival e.arrival ≤ 8 ∧ st.cross ≤ rho then
        match rest with
        | none => some rho
        | some m => some (max rho m)
      else rest

/-- The cross partner: the listening pair with the largest |ρ_Y|, at a tie the lower letter (R119). -/
def crossPartner (st : EchoSettings) (launch : Int) (e : WorkEcho) (listening : List (Pair × List RawEcho)) :
    Option (Pair × Nat) :=
  match listening with
  | [] => none
  | (p, ys) :: rest =>
      match crossRatio st launch e ys, crossPartner st launch e rest with
      | none, best => best
      | some m, none => some (p, m)
      | some m, some (p', m') => if m < m' then some (p', m') else some (p, m)

/-- R120: the class by ratio. -/
def classByRatio (rho : Int) : EchoClass :=
  if 48 ≤ rho then .openEnd else if rho ≤ -48 then .short else if 0 < rho then .highZ else .lowZ

/-- R118 to R120 in order, and the echo entry of Table 6-5. -/
def classifyEcho (st : EchoSettings) (launch : Int) (listening : List (Pair × List RawEcho)) (e : WorkEcho) : Echo :=
  let entry (cls : EchoClass) (j : Option Nat) (p : Option Pair) : Echo :=
    ⟨e.distance, e.amplitude, e.ratio, decide (0 < e.peak), cls, e.clamped, j, p⟩
  match nearestJunction e.distance (stretches st.delays st.table),
      decide (e.ratio.natAbs < st.junctionLimit) with
  | some s, true => entry .junction (some s.index) none
  | _, _ =>
      if e.ratio ≤ -(st.mismatch : Int) then
        match crossPartner st launch e listening with
        | some (p, _) => entry .crossShort none (some p)
        | none => entry (classByRatio e.ratio) none none
      else entry (classByRatio e.ratio) none none

/-! ### Verdict and pair result (R107, R121, R122) -/

def isFaultClass : EchoClass → Bool
  | .openEnd => true
  | .short => true
  | .crossShort => true
  | .highZ => false
  | .lowZ => false
  | .junction => false

def isMismatchClass : EchoClass → Bool
  | .openEnd => false
  | .short => false
  | .crossShort => false
  | .highZ => true
  | .lowZ => true
  | .junction => false

def faultVerdict : EchoClass → Verdict
  | .openEnd => .openEnd
  | .short => .short
  | .crossShort => .crossShort
  | .highZ => .mismatch
  | .lowZ => .mismatch
  | .junction => .good

/-- The verdict and verdict distance over the whole classified list, ascending in distance (R122). -/
def verdictOf (l : List Echo) : Verdict × Option Nat :=
  match l.find? (fun e => isFaultClass e.cls) with
  | some e => (faultVerdict e.cls, some e.distance)
  | none =>
      match l.find? (fun e => isMismatchClass e.cls) with
      | some e => (.mismatch, some e.distance)
      | none => (.good, none)

/-- The NO_LAUNCH result (R107). -/
def noLaunchResult (launch : Int) : PairResult := ⟨.noLaunch, none, some launch, false, []⟩

/-- The result from a classified list: the five nearest echoes, the truncated flag, the verdict (R121, R122). -/
def resultOf (launch : Int) (l : List Echo) : PairResult :=
  let v := verdictOf l
  ⟨v.1, v.2, some launch, decide (5 < l.length), l.take 5⟩

/-- The pairs other than the driven one, in letter order. -/
def listeningPairs (driven : Pair) : List Pair := Pair.all.filter (· ≠ driven)

/-- R105 to R122 on one working set, with the driven pair's Q0 and template. -/
def processPair (st : EchoSettings) (q0 : Nat) (template : List Int) (w : WorkingSet) : PairResult :=
  let record := interleave (w.samples.get w.driven)
  let launch := launchAmplitude record q0
  if launch < 256 then noLaunchResult launch
  else
    let start := q0 + blanking w.reach
    let found := detectEchoes st.detect start (residual record template)
    let listening := (listeningPairs w.driven).map
      (fun p => (p, detectEchoes st.detect start (interleave (w.samples.get p))))
    let merged := mergeClose st launch (discardWeak st (found.map (weighEcho st q0 launch)))
    resultOf launch (merged.map (classifyEcho st launch listening))

/-! ### Calibration arithmetic (R185) -/

/-- The first position at which a value is at least m, counted from i. -/
def firstAtLeast (m : Int) : Nat → List Int → Nat
  | i, [] => i
  | i, x :: xs => if m ≤ x then i else firstAtLeast m (i + 1) xs

/-- Q0 from the SHORT record (R185 step 4). -/
def calibrationQ0 (record : List Int) : Nat :=
  let window := record.take 128
  let top := greatest window
  if top ≤ 0 then 127 else firstAtLeast (Int.tdiv top 2) 0 window

/-- The sums of the shots of one pair, fired from shot index i on, on capture window w (R91, R92). -/
def sumShots (w : Nat) : Nat → List (List Int) → PerPhase (List Int) → PerPhase (List Int)
  | _, [], acc => acc
  | i, shot :: shots, acc =>
      sumShots w (i + 1) shots
        (updatePhase acc (slotPhase (i % 4)) (fun v => addSamples v (captureSamples w shot)))

/-- The interleaved record of one pair and reach at calibration: 64 shots with N = 16 (R185 steps 2 and 3). -/
def calibrationRecord (reach : Reach) (shots : List (List Int)) : List Int :=
  let w := captureWindow reach
  interleave (averageSums 16 (sumShots w 0 (shots.take 64) (zeroSums w)))

/-- The calibration data of one port (R185 steps 2 to 4). -/
def calibratePort (input : CalibrationInput) : PortCal :=
  { q0 := input.map (fun r => calibrationQ0 (calibrationRecord .short r.short))
    templates := input.map (fun r =>
      ⟨(calibrationRecord .short r.short).take 128, (calibrationRecord .medium r.medium).take 128,
        (calibrationRecord .long r.long).take 128⟩) }

/-- A port with a Q0 above 63 on any pair is marked CAL_FAULT (R185). -/
def calFaulty (cal : PortCal) : Bool := cal.q0.toList.any (fun q => decide (63 < q))

end Sys2Proof.Machine
end

