-- ==== Sys2Proof/Machine/Frames.lean ====
section
/-! DEFINITION. Frames of the station line: the layout of Table 8-2, the CRC-8 of R138, and the transmit list's order
(R145). -/

namespace Sys2Proof.Machine

/-- The bits of a byte, most significant first; true is recessive (section 8.2). -/
def bitsOf (b : Byte) : List Bool :=
  [b.getLsbD 7, b.getLsbD 6, b.getLsbD 5, b.getLsbD 4, b.getLsbD 3, b.getLsbD 2, b.getLsbD 1, b.getLsbD 0]

/-- One bit of the check (R138). -/
def crcStep (check : Byte) (bit : Bool) : Byte :=
  if check.getLsbD 7 != bit then (check <<< 1) ^^^ 7 else check <<< 1

/-- The CRC-8 of the covered bytes in frame order, starting at 0 (R138). -/
def crc8 (bytes : List Byte) : Byte := (bytes.flatMap bitsOf).foldl crcStep 0

/-- Byte 0: kind code and source (Table 8-2). -/
def byte0 (kind source : Nat) : Byte := byteOf (16 * kind + source)

/-- Byte 1: destination and payload length (Table 8-2). -/
def byte1 (dest length : Nat) : Byte := byteOf (16 * dest + length)

/-- The bytes the check covers (Table 8-2). -/
def coveredBytes (kind source dest : Nat) (payload : List Byte) : List Byte :=
  byte0 kind source :: byte1 dest payload.length :: payload

/-- A frame as sent: start, each covered byte with its spacer, check byte, objection slot, end (R137). -/
def frameBits (kind source dest : Nat) (payload : List Byte) : List Bool :=
  let covered := coveredBytes kind source dest payload
  false :: (covered.flatMap (fun b => bitsOf b ++ [true])) ++ bitsOf (crc8 covered) ++ [true, true]

/-- The bits of a frame from its start bit to the last bit of its check byte, each covered byte with the level of its
spacer (Table 8-2). -/
def bitsToCheck (bytes : List Byte) (check : Byte) (spacers : List Bool) : List Bool :=
  false :: (List.zipWith (fun b x => bitsOf b ++ [x]) bytes spacers).flatten ++ bitsOf check

/-- The length of a frame with n payload bytes, in bits and in µs (section 8.3). -/
def frameLength (n : Nat) : Nat := 9 * n + 29

/-! ### The fields of a frame as its bits give them (Table 8-2; bit positions count from 1 at the start bit) -/

/-- The number that bits spell, most significant first. -/
def valueOf (bits : List Bool) : Nat := bits.foldl (fun v b => 2 * v + b.toNat) 0

/-- The number in the `width` bit positions from `first` on. -/
def fieldAt (bits : List Bool) (first width : Nat) : Nat := valueOf ((bits.drop (first - 1)).take width)

/-- The payload length a receiver reads from bit positions 15..18 (R137). -/
def payloadLength (bits : List Bool) : Nat := fieldAt bits 15 4

/-- The last bit position of the payload's bytes and spacers, or of the header's where there is no payload. -/
def bodyEnd (bits : List Bool) : Nat := 19 + 9 * payloadLength bits

/-- The last bit position of the check byte. -/
def checkEnd (bits : List Bool) : Nat := bodyEnd bits + 8

/-- The bit position of the objection slot. -/
def slotPosition (bits : List Bool) : Nat := bodyEnd bits + 9

/-- The bit position of the end bit. -/
def endPosition (bits : List Bool) : Nat := bodyEnd bits + 10

/-- The bytes a frame's check covers (Table 8-2). -/
def coveredRead (bits : List Bool) : List Byte :=
  (List.range (payloadLength bits + 2)).map (fun i => byteOf (fieldAt bits (2 + 9 * i) 8))

/-- The spacers after them (Table 8-2). -/
def spacersRead (bits : List Bool) : List Bool :=
  (List.range (payloadLength bits + 2)).map (fun i => bits.getD (9 + 9 * i) true)

/-- The check byte of a frame (Table 8-2). -/
def checkRead (bits : List Bool) : Byte := byteOf (fieldAt bits (bodyEnd bits + 1) 8)

/-- The objection slot of a whole frame reads dominant (R143). -/
def slotDominant (bits : List Bool) : Bool := !(bits.getD (slotPosition bits - 1) true)

/-- The fields of a frame, its payload placed by the length read (R137, R142). -/
def frameRead (bits : List Bool) : RxFrame :=
  { kind := BitVec.ofNat 4 (fieldAt bits 2 4), source := BitVec.ofNat 4 (fieldAt bits 6 4)
    dest := BitVec.ofNat 4 (fieldAt bits 11 4)
    payload := (List.range (payloadLength bits)).map (fun j => byteOf (fieldAt bits (20 + 9 * j) 8)) }

/-- Places a frame in list order: after the frames of its kind code or a lower one (R145). -/
def insertFrame (f : Frame) : List Frame → List Frame
  | [] => [f]
  | g :: gs => if frameKindCode g.kind ≤ frameKindCode f.kind then g :: insertFrame f gs else f :: g :: gs

/-- Takes the first frame that satisfies a test out of the list. -/
def takeOut (test : Frame → Bool) : List Frame → List Frame
  | [] => []
  | g :: gs => if test g then gs else g :: takeOut test gs

/-- How many frames of a kind the list holds. -/
def countKind (k : FrameKind) (l : List Frame) : Nat := (l.filter (fun f => f.kind == k)).length

def Frame.isFor (f : Frame) (k : FrameKind) (ch : ChannelId) : Bool := f.kind == k && f.channel == some ch

/-- Payload bytes of a CLAIM (R155). -/
def claimPayload (c : LocalClaim) : List Byte :=
  [c.number, byteOf c.target.val, priorityCode c.priority, byteOf c.duration]

/-- Payload bytes of a RELEASE (R155). -/
def releasePayload (c : LocalClaim) : List Byte := [c.number, byteOf c.target.val]

end Sys2Proof.Machine
end

