-- ==== Sys2Proof/Machine/Flags.lean ====
section
/-! DEFINITION. Flags and counters: the event summary and its ALERT (R130 to R132), the saturating counters (section
7.3), the watch criteria's status (R47), and reading and changing one port. -/

namespace Sys2Proof.Machine

/-! ### One port, one channel -/

/-- Port p of the state. -/
def State.port (s : State) (p : PortId) : Port := s.ports[p.val]

/-- Changes port p. -/
def State.modPort (s : State) (p : PortId) (f : Port → Port) : State :=
  { s with ports := s.ports.set p.val (f (s.port p)) p.isLt }

/-- Changes every port. -/
def State.mapPorts (s : State) (f : PortId → Port → Port) : State :=
  { s with ports := ⟨#[f 0 (s.port 0), f 1 (s.port 1), f 2 (s.port 2), f 3 (s.port 3), f 4 (s.port 4),
      f 5 (s.port 5), f 6 (s.port 6), f 7 (s.port 7), f 8 (s.port 8), f 9 (s.port 9), f 10 (s.port 10),
      f 11 (s.port 11)], rfl⟩ }

/-- Channel ch of the state. -/
def State.chan (s : State) (ch : ChannelId) : Channel := s.channels[ch.val]

/-- Changes channel ch. -/
def State.modChan (s : State) (ch : ChannelId) (f : Channel → Channel) : State :=
  { s with channels := s.channels.set ch.val (f (s.chan ch)) ch.isLt }

/-- The other echo channel. -/
def otherChannel (ch : ChannelId) : ChannelId := if ch = 0 then 1 else 0

/-! ### Timers -/

/-- Starts a timer at 0 with a limit in µs. -/
def Timer.start (limit : Nat) : Timer := ⟨true, 0, limit⟩

/-- Stops a timer at its value. -/
def Timer.pause (t : Timer) : Timer := { t with running := false }

/-- Lets a stopped timer go on from its value. -/
def Timer.resume (t : Timer) : Timer := { t with running := true }

/-- One µs passes. A timer that has reached its limit stays there until its event is taken. -/
def Timer.tick (t : Timer) : Timer :=
  if t.running ∧ t.elapsed < t.limit then { t with elapsed := t.elapsed + 1 } else t

/-- The interval has fully elapsed (section 5.2). -/
def Timer.expired (t : Timer) : Bool := t.running && decide (t.limit ≤ t.elapsed)

/-! ### Counters -/

/-- A 16-bit counter stays at 65535 when counted further (section 7.3). -/
def satCount (c : Count16) : Count16 := if c = 65535 then c else c + 1

/-- The drop counter of a cause is increased by 1 (R60). -/
def countDrop (d : DropCounters) : DropCause → DropCounters
  | .symbolErrors => { d with symbolErrors := satCount d.symbolErrors }
  | .idleErrors => { d with idleErrors := satCount d.idleErrors }
  | .marginDips => { d with marginDips := satCount d.marginDips }
  | .energyLoss => { d with energyLoss := satCount d.energyLoss }
  | .lockLoss => { d with lockLoss := satCount d.lockLoss }
  | .silence => { d with silence := satCount d.silence }
  | .heldForMeasurement => { d with heldForMeasurement := satCount d.heldForMeasurement }
  | .console => { d with console := satCount d.console }

/-! ### Events (R130, R131) -/

/-- The events of Table 7-4. -/
inductive Event where
  | linkUp (p : PortId)
  | linkDown (p : PortId)
  | diagDone (p : PortId)
  | downshift (p : PortId)
  | trainFailed (p : PortId)
  | calFault
  | selfLocked
  | duplicateStation
  | lineStuck
  | requestOverrun
  deriving DecidableEq, Repr

/-- The summary with an event added; it holds an event, for its port, once (R131). -/
def Summary.add (m : Summary) : Event → Summary
  | .linkUp p => { m with linkUp := m.linkUp.insert p }
  | .linkDown p => { m with linkDown := m.linkDown.insert p }
  | .diagDone p => { m with diagDone := m.diagDone.insert p }
  | .downshift p => { m with downshift := m.downshift.insert p }
  | .trainFailed p => { m with trainFailed := m.trainFailed.insert p }
  | .calFault => { m with calFault := true }
  | .selfLocked => { m with selfLocked := true }
  | .duplicateStation => { m with duplicate := true }
  | .lineStuck => { m with lineStuck := true }
  | .requestOverrun => { m with overrun := true }

/-- Whether the summary holds an event. -/
def Summary.has (m : Summary) : Event → Bool
  | .linkUp p => m.linkUp.has p
  | .linkDown p => m.linkDown.has p
  | .diagDone p => m.diagDone.has p
  | .downshift p => m.downshift.has p
  | .trainFailed p => m.trainFailed.has p
  | .calFault => m.calFault
  | .selfLocked => m.selfLocked
  | .duplicateStation => m.duplicate
  | .lineStuck => m.lineStuck
  | .requestOverrun => m.overrun

/-- Places a frame in the transmit list (R145). -/
def placeFrame (f : Frame) (s : State) : State := { s with line.list := insertFrame f s.line.list }

/-- The ALERT frame: no payload (R132). -/
def alertFrame : Frame := ⟨.alert, [], none, false⟩

/-- Raises an event: it joins the summary, and an empty summary that becomes non-empty places an ALERT unless one
waits (R131, R132). -/
def raise (e : Event) (s : State) : State :=
  let s' := { s with summary := s.summary.add e }
  if s.summary = Summary.empty ∧ countKind .alert s.line.list = 0 then placeFrame alertFrame s' else s'

/-! ### Watch criteria (R47) -/

/-- The status of a selectable criterion, coded as PORT page 4 codes it (Table 10-5). -/
inductive CriterionStatus where
  | disabled | enabled | dormant
  deriving DecidableEq, Repr

/-- MARGIN_DIPS and LOCK_LOSS are dormant when neither SYMBOL_ERRORS nor ENERGY_LOSS is enabled (R47). -/
def criteriaDormant (c : Criteria) : Bool := !(c.symbolErrors || c.energyLoss)

def plainStatus (enabled : Bool) : CriterionStatus := if enabled then .enabled else .disabled

def dormantStatus (enabled dormant : Bool) : CriterionStatus :=
  if enabled then (if dormant then .dormant else .enabled) else .disabled

def symbolStatus (c : Criteria) : CriterionStatus := plainStatus c.symbolErrors
def idleStatus (c : Criteria) : CriterionStatus := plainStatus c.idleErrors
def marginStatus (c : Criteria) : CriterionStatus := dormantStatus c.marginDips (criteriaDormant c)
def energyStatus (c : Criteria) : CriterionStatus := plainStatus c.energyLoss
def lockStatus (c : Criteria) : CriterionStatus := dormantStatus c.lockLoss (criteriaDormant c)

/-- A criterion counts, or acts, only when enabled and not dormant (R47). -/
def CriterionStatus.counts (c : CriterionStatus) : Bool := c == .enabled

def criterionCode : CriterionStatus → Byte
  | .disabled => 0
  | .enabled => 1
  | .dormant => 2

/-- The criteria of port p. -/
def State.criteria (s : State) (p : PortId) : Criteria := s.setup.criteria[p.val]

/-- The current offer set of a port context (R1). -/
def currentOffer (t : Training) : GradeSet :=
  match t.forced with
  | some g => GradeSet.single g
  | none => if t.downshift then t.offerMask.inter twoPairGrades else t.offerMask

/-- The sweep's or an entry's ports: the segment table of port p. -/
def State.segments (s : State) (p : PortId) : Vector Segment 4 := s.setup.segments[p.val]

/-- Port p is unpopulated or marked CAL_FAULT (R6). -/
def State.unserved (s : State) (p : PortId) : Bool :=
  !(populated s.station.population p) || s.station.calFaults.has p

end Sys2Proof.Machine
end

