-- ==== Sys2Proof/Machine/Ops.lean ====
section
/-! DEFINITION. Shared operations on one port: entering a training state, leaving UP, adding and removing hold reasons
(Chapters 1 to 3), pair health and downshift (Chapter 2), and what the record store notes (Chapter 7). -/

namespace Sys2Proof.Machine

/-! ### Fixed training times, in µs (Table 1-4) -/

/-- Settle codes 0..4 give 1, 4, 16, 64, 256 ms (R4, R57, R86). -/
def settleTime (code : Nat) : Nat := 1000 * 4 ^ code

def wakeTime : Nat := 2000
def offeringLimit : Nat := 800000
def pagePeriod : Nat := 8000
def legacyTime : Nat := 20000
def resolvingLimit : Nat := 300000
def identifyLimit : Nat := 100000
def patternPeriod : Nat := 1000
def qualifyTime : Nat := 2000
def qualifyingLimit : Nat := 1000000
def silenceTime : Nat := 100000

/-- 64 ms × 2^m, m the consecutive failure count limited to 5 (R19). -/
def backoffTime (count : Nat) : Nat := 64000 * 2 ^ min count 5

/-- The error-free target: 10 ms at G1 and G2, 40 ms at G3 and G4 (R15). -/
def errorFreeTarget (g : Option Grade) : Nat :=
  match g with
  | some g => if fourPairGrade g then 40000 else 10000
  | none => 10000

/-! ### Entering a training state -/

/-- What belongs to an attempt or a link and ends with it (R18 step 2, R20; assumption log 12). That the error-free timer keeps its
value is the model's choice (log 38). -/
def clearAttempt (t : Training) : Training :=
  { t with partner := none, pageHeard := false, hearing := 0, accepted := false, grade := none, role := none
           errorFree := t.errorFree.pause }

/-- A port whose attempt has ended, with no hold reason and no training timer running, in a new state. That the timers stand at 0 is
the model's choice (assumption log 38). -/
def settleInto (st : TrainState) (p : Port) : Port :=
  { p with train := { clearAttempt p.train with state := st, holds := HoldReasons.empty }
           timers := TrainTimers.fresh }

/-- Entry to SETTLING with the settle time of the code in force (R4). -/
def enterSettling (code : Nat) (p : Port) : Port :=
  let p' := settleInto .settling p
  { p' with timers.settle := Timer.start (settleTime code) }

/-- The effects of every DORMANT entry (R2, R37, R43). -/
def enterDormant (p : Port) : Port :=
  let p' := settleInto .dormant p
  { p' with train := { p'.train with consecutive := 0, fourPair := 0, runAlerted := false
                                     health := PerPair.const .unknown, downshift := false, tieCount := 0 } }

/-- Entry to DISABLED (R6, R26). -/
def enterDisabled (p : Port) : Port := settleInto .disabled p

/-- Entry to BACKOFF (R19). -/
def enterBackoff (p : Port) : Port :=
  let p' := settleInto .backoff p
  { p' with timers.backoff := Timer.start (backoffTime p.train.consecutive) }

/-- Re-entry: DORMANT when energy is absent, otherwise SETTLING (R2). -/
def portReEntry (code : Nat) (p : Port) : Port :=
  if p.front.energy then enterSettling code p else enterDormant p

/-- Port p takes re-entry. -/
def reEnter (p : PortId) (s : State) : State := s.modPort p (portReEntry s.setup.wakeSettle)

/-! ### Leaving UP (R17, R46, R60) -/

/-- The watch of a port that leaves UP (R46, R53). The rules say that the window and silence timers stop; that they then stand at 0 is
the model's choice (assumption log 38). -/
def watchOff (w : Watch) : Watch :=
  { w with condition := .off, window := Timer.off, symbol := 0, idle := 0, margin := 0, silence := Timer.off }

/-- The drop of R17 at the port: cause recorded, counter counted, grade and role cleared, watch OFF. -/
def dropPort (cause : DropCause) (p : Port) : Port :=
  { p with train := { p.train with lastDrop := some cause, grade := none, role := none }
           watch := watchOff p.watch
           store := { p.store with drops := countDrop p.store.drops cause } }

/-- The drop of port p, with LINK_DOWN raised (R17). The state after it is the caller's. -/
def dropLink (p : PortId) (cause : DropCause) (s : State) : State :=
  raise (.linkDown p) (s.modPort p (dropPort cause))

/-! ### Hold reasons (R20 to R22) -/

/-- Adds hold reasons; a port that was not HELD abandons the state it was in (R20). -/
def holdPort (f : HoldReasons → HoldReasons) (p : Port) : Port :=
  let p' := if p.train.state = .held then p else settleInto .held p
  { p' with train.holds := f p'.train.holds }

/-- Removes hold reasons; a HELD port whose set becomes empty takes re-entry (R22). -/
def unholdPort (code : Nat) (f : HoldReasons → HoldReasons) (p : Port) : Port :=
  let p' := { p with train.holds := f p.train.holds }
  if p.train.state = .held ∧ p'.train.holds = HoldReasons.empty then portReEntry code p' else p'

def addChannelHold (h : HoldReasons) : HoldReasons := { h with channel := true, await := false }
def addSettleHold (h : HoldReasons) : HoldReasons := { h with settle := true }
def addAwaitHold (h : HoldReasons) : HoldReasons := { h with await := true }
def dropChannelHold (h : HoldReasons) : HoldReasons := { h with channel := false }
def dropSettleHold (h : HoldReasons) : HoldReasons := { h with settle := false }
def dropAwaitHold (h : HoldReasons) : HoldReasons := { h with await := false }

/-- Port p gets hold reasons. -/
def hold (p : PortId) (f : HoldReasons → HoldReasons) (s : State) : State := s.modPort p (holdPort f)

/-- Port p loses hold reasons. -/
def unhold (p : PortId) (f : HoldReasons → HoldReasons) (s : State) : State :=
  s.modPort p (unholdPort s.setup.wakeSettle f)

/-- The drop settle of the drop path starts: SETTLE and its timer (R57). -/
def startDropSettle (p : PortId) (s : State) : State :=
  (hold p addSettleHold s).modPort p
    (fun pt => { pt with watch.dropSettle := Timer.start (settleTime s.setup.dropSettle) })

/-- The drop settle timer is stopped (R58, R59); that it then stands at 0 is the model's choice (assumption log 38). -/
def stopDropSettle (p : PortId) (s : State) : State := s.modPort p (fun pt => { pt with watch.dropSettle := Timer.off })

/-- A quality drop: HELD with SETTLE when diagnose-on-drop is on, re-entry otherwise (R17, R53, R57). -/
def qualityDrop (p : PortId) (cause : DropCause) (s : State) : State :=
  let s' := dropLink p cause s
  if s.setup.diagnose.has p then startDropSettle p s' else reEnter p s'

/-! ### Pair health and downshift (R36, R38, R41, R42) -/

/-- Table 2-2. -/
def healthAfter (v : Verdict) (h : Health) : Health :=
  match v with
  | .good => .sound
  | .mismatch => .sound
  | .openEnd => .faulty
  | .short => .faulty
  | .crossShort => .faulty
  | .noLaunch => .faulty
  | .busy => h
  | .notMeasured => h

/-- Pair C or D is FAULTY. -/
def pairFaulty (t : Training) : Bool := t.health.c == .faulty || t.health.d == .faulty

/-- Pairs C and D are both SOUND. -/
def pairsSound (t : Training) : Bool := t.health.c == .sound && t.health.d == .sound

/-- Sets downshift, returns the four-pair count to 0 and raises DOWNSHIFT (R42). -/
def setDownshift (p : PortId) (s : State) : State :=
  raise (.downshift p) (s.modPort p (fun pt => { pt with train := { pt.train with downshift := true, fourPair := 0 } }))

def clearFourPair (p : PortId) (s : State) : State := s.modPort p (fun pt => { pt with train.fourPair := 0 })

/-- The second downshift test at the final outcome that ends a pending check (R41). -/
def secondDownshiftTest (p : PortId) (s : State) : State :=
  if (s.port p).train.downshiftCheck then
    let s' := s.modPort p (fun pt => { pt with train.downshiftCheck := false })
    if pairFaulty (s.port p).train then setDownshift p s' else clearFourPair p s'
  else s

/-! ### The record store (R126 to R128) -/

/-- Final outcomes; the two that replace a record carry its sequence number and pair results (R124, R126). -/
inductive FinalOutcome where
  | complete (sequence : Count16) (pairs : PerPair PairResult)
  | busyLine (sequence : Count16) (pairs : PerPair PairResult)
  | cancelled
  | portDisabled
  | skippedLinkUp
  deriving DecidableEq, Repr

def FinalOutcome.attempt : FinalOutcome → Attempt
  | .complete _ _ => .complete
  | .busyLine _ _ => .busyLine
  | .cancelled => .cancelled
  | .portDisabled => .portDisabled
  | .skippedLinkUp => .skippedLinkUp

/-- The record a final outcome makes of an entry, if it makes one (R124, R126). -/
def FinalOutcome.record (o : FinalOutcome) (e : Entry) : Option Record :=
  match o with
  | .complete seq prs => some ⟨seq, e.origin, .complete, e.reach, e.averaging, prs⟩
  | .busyLine seq prs => some ⟨seq, e.origin, .busyLine, e.reach, e.averaging, prs⟩
  | .cancelled => none
  | .portDisabled => none
  | .skippedLinkUp => none

/-- The record replaced or kept, pair health from a new record, and the last attempt outcome (R127 steps 1 to 3). -/
def storeOutcome (e : Entry) (o : FinalOutcome) (pt : Port) : Port :=
  match o.record e with
  | some r =>
      { pt with store := { pt.store with record := some r, attempt := some o.attempt }
                train.health := PerPair.zip healthAfter (r.pairs.map PairResult.verdict) pt.train.health }
  | none => { pt with store.attempt := some o.attempt }

/-- R127: the record store takes a final outcome and raises DIAG_DONE. -/
def takeOutcome (e : Entry) (o : FinalOutcome) (s : State) : State :=
  raise (.diagDone e.target) (s.modPort e.target (storeOutcome e o))

/-- R128: QUEUE_FULL is noted and DIAG_DONE raised. -/
def noteQueueFull (p : PortId) (s : State) : State :=
  raise (.diagDone p) (s.modPort p (fun pt => { pt with store.attempt := some .queueFull }))

/-! ### Shadow changes at a port (R54 to R56) -/

/-- A shadow starts at the port. R54 stops the window timer; that it then stands at 0 is the model's choice (assumption log 38). -/
def shadowStart (p : Port) : Port :=
  let p' := { p with train.shadowed := true }
  match p.train.state, p.watch.condition with
  | .up, .counting =>
      { p' with watch := { p.watch with condition := .suspended, window := Timer.off, symbol := 0, idle := 0, margin := 0 } }
  | .qualifying, _ => { p' with train.errorFree := p.train.errorFree.pause }
  | _, _ => p'

/-- A shadow ends at the port; `window` is the watch window length. -/
def shadowEnd (window : Nat) (p : Port) : Port :=
  let p' := { p with train.shadowed := false }
  match p.train.state, p.watch.condition with
  | .up, .suspended =>
      { p' with watch := { p.watch with condition := .counting, window := Timer.start window, symbol := 0, idle := 0, margin := 0 } }
  | .qualifying, _ => { p' with train.errorFree := p.train.errorFree.resume }
  | _, _ => p'

/-- The port's flag becomes `now` (R167). -/
def shadowChange (window : Nat) (now : Bool) (p : Port) : Port :=
  if p.train.shadowed = now then p else if now then shadowStart p else shadowEnd window p

end Sys2Proof.Machine
end

