-- ==== Sys2Proof/Machine/Scheduler.lean ====
section
/-! DEFINITION. The measurement scheduler's shared operations: the request queue, merging, displacement, final outcomes
and the sweep (Chapter 4). -/

namespace Sys2Proof.Machine

/-! ### Queue order and entries (R62, R63) -/

def priorityRank : Priority → Nat
  | .urgent => 0
  | .normal => 1
  | .background => 2

/-- The origin fixes the priority (R63). -/
def originPriority : Origin → Priority
  | .console => .normal
  | .sweep => .background
  | .drop => .urgent
  | .downshift => .urgent

/-- An automatic request's origins (R21). -/
def automaticOrigin : Origin → Bool
  | .console => false
  | .sweep => false
  | .drop => true
  | .downshift => true

/-- Entry e stands before entry x in queue order: higher priority, or earlier stamp within one (R62). -/
def entryBefore (e x : Entry) : Bool :=
  decide (priorityRank e.priority < priorityRank x.priority) ||
    (priorityRank e.priority == priorityRank x.priority && decide (e.stamp < x.stamp))

/-- Puts an entry in its place (R62). -/
def insertEntry (e : Entry) : List Entry → List Entry
  | [] => [e]
  | x :: xs => if entryBefore e x then e :: x :: xs else x :: insertEntry e xs

/-- The capacity of the queue, held entries counted (R62). -/
def queueCapacity : Nat := 16

def withoutTarget (p : PortId) (q : List Entry) : List Entry := q.filter (fun e => decide (e.target ≠ p))

/-- The entry for port p. -/
def entryFor (p : PortId) (s : State) : Option Entry := s.queue.find? (fun e => decide (e.target = p))

def Entry.waiting (e : Entry) : Bool := e.holder.isNone

/-- The waiting entry for port p. -/
def waitingFor (p : PortId) (s : State) : Option Entry := s.queue.find? (fun e => decide (e.target = p) && e.waiting)

/-- A channel holds an entry for port p. -/
def heldFor (p : PortId) (s : State) : Bool := s.queue.any (fun e => decide (e.target = p) && !e.waiting)

/-- The entry channel ch holds. -/
def heldEntry (ch : ChannelId) (s : State) : Option Entry := s.queue.find? (fun e => decide (e.holder = some ch))

/-- What a request asks for (R63). -/
structure MeasureRequest where
  pairs : PairSet
  reach : Reach
  averaging : Averaging
  intrusive : Bool
  origin : Origin
  tag : Option Byte
  deriving DecidableEq, Repr

/-- R65: the entry after a merge. -/
def mergeEntry (r : MeasureRequest) (e : Entry) : Entry :=
  let promoted := decide (priorityRank (originPriority r.origin) < priorityRank e.priority)
  { e with
    pairs := e.pairs.union r.pairs
    reach := longerReach e.reach r.reach
    averaging := largerAveraging e.averaging r.averaging
    intrusive := e.intrusive || r.intrusive
    priority := if promoted then originPriority r.origin else e.priority
    origin := if promoted then r.origin else e.origin
    tag := match r.tag with
      | some t => some t
      | none => e.tag }

/-- The new entry a request makes, with the next arrival stamp (R62, R63). -/
def newEntry (p : PortId) (r : MeasureRequest) (stamp : Nat) : Entry :=
  { target := p, pairs := r.pairs, reach := r.reach, averaging := r.averaging, intrusive := r.intrusive
    priority := originPriority r.origin, origin := r.origin, tag := r.tag, stamp := stamp, holder := none }

/-- Merges a request into the waiting entry e for port p, which then stands at its place (R65). -/
def mergeInto (p : PortId) (r : MeasureRequest) (e : Entry) (s : State) : State :=
  { s with queue := insertEntry (mergeEntry r e) (withoutTarget p s.queue) }

/-- Adds a new entry at the tail of its priority (R62, R64, R66). -/
def addEntry (p : PortId) (r : MeasureRequest) (s : State) : State :=
  { s with queue := insertEntry (newEntry p r s.arrival) s.queue, arrival := s.arrival + 1 }

/-- Takes the entry for port p out of the queue. -/
def removeEntry (p : PortId) (s : State) : State := { s with queue := withoutTarget p s.queue }

/-- The holder of port p's entry changes. -/
def setHolder (p : PortId) (h : Option ChannelId) (s : State) : State :=
  { s with queue := s.queue.map (fun e => if e.target = p then { e with holder := h } else e) }

/-! ### The sweep (R70 to R72) -/

/-- The entry carries the tag of the current sweep (R69). -/
def carriesTag (s : State) (e : Entry) : Bool := e.tag == some s.sweep.tag && s.sweep.fields.isSome

/-- The ports of a set after the cursor, all of them when it is absent (R71). -/
def portsAfter (ports : PortSet) (cursor : Option PortId) : List PortId :=
  ports.members.filter (fun p =>
    match cursor with
    | none => true
    | some c => decide (c < p))

/-- The request a sweep makes for a port (R63). -/
def sweepRequest (f : SweepFields) (tag : Byte) : MeasureRequest :=
  ⟨PairSet.full, f.reach, f.averaging, false, .sweep, some tag⟩

/-- The end of a round (R72). -/
def endRound (f : SweepFields) (s : State) : State :=
  if f.period = 0 then
    { s with sweep := { s.sweep with status := .finished, cursor := none, period := Timer.off } }
  else
    { s with sweep := { s.sweep with status := .waitingPeriod, cursor := none, period := Timer.start (1000000 * f.period) } }

/-- The advance over these ports of the set (R71). -/
def sweepOver (f : SweepFields) : List PortId → State → State
  | [], s => endRound f s
  | p :: ps, s =>
      if heldFor p s then sweepOver f ps { s with sweep.cursor := some p }
      else
        match waitingFor p s with
        | some e =>
            mergeInto p (sweepRequest f s.sweep.tag) e
              { s with sweep := { s.sweep with cursor := some p, status := .running } }
        | none =>
            if s.queue.length < queueCapacity then
              addEntry p (sweepRequest f s.sweep.tag)
                { s with sweep := { s.sweep with cursor := some p, status := .running } }
            else { s with sweep.status := .waitingSpace }

/-- The sweep advances from its cursor (R71). -/
def sweepAdvance (s : State) : State :=
  match s.sweep.fields with
  | none => s
  | some f => sweepOver f (portsAfter f.ports s.sweep.cursor) s

/-- After an entry has left the queue: the sweep whose entry it was advances, and so does a sweep that waits for
space (R71). -/
def sweepAfter (wasSweeps : Bool) (s : State) : State :=
  if wasSweeps || s.sweep.status == .waitingSpace then sweepAdvance s else s

/-- The sweep ends: status NONE, fields removed, tag kept, and no entry carries it any more (R72). -/
def endSweep (s : State) : State :=
  { s with
    sweep := { s.sweep with status := .none, fields := none, cursor := none, period := Timer.off }
    queue := s.queue.map (fun e => if e.tag = some s.sweep.tag then { e with tag := none } else e) }

/-- R70: what an accepted SWEEP does to the entries of the old record. -/
def retireSweep (s : State) : State :=
  { s with
    queue := (s.queue.filter (fun e => !(carriesTag s e && e.waiting && e.origin == .sweep))).map
      (fun e => if carriesTag s e then { e with tag := none } else e) }

/-! ### Final outcomes and removal (R69, R79) -/

/-- R69: the final outcome of port p's entry: the entry leaves, the record store acts, the second downshift test runs,
the hold reason is removed, and the sweep advances. -/
def finalOutcome (p : PortId) (o : FinalOutcome) (s : State) : State :=
  match entryFor p s with
  | none => s
  | some e =>
      sweepAfter (carriesTag s e)
        (unhold p (if e.waiting then dropAwaitHold else dropChannelHold)
          (secondDownshiftTest p (takeOutcome e o (removeEntry p s))))

/-- A waiting entry removed without an outcome by RESET PORT (R79). -/
def dropWaiting (p : PortId) (s : State) : State :=
  match waitingFor p s with
  | none => s
  | some e => sweepAfter (carriesTag s e) (removeEntry p s)

/-! ### Automatic requests (R66, R67) -/

/-- The youngest waiting BACKGROUND entry (R67). -/
def youngestBackground : List Entry → Option Entry
  | [] => none
  | e :: es =>
      let rest := youngestBackground es
      if e.waiting && e.priority == .background then
        match rest with
        | none => some e
        | some f => if e.stamp < f.stamp then some f else some e
      else rest

/-- R66: an automatic request is merged or accepted (some), or not queued (none). It never meets an entry for its port that a
channel holds; if it did it would not be queued (assumption log 29). -/
def autoRequest (p : PortId) (r : MeasureRequest) (s : State) : Option State :=
  match waitingFor p s with
  | some e => some (mergeInto p r e s)
  | none =>
      if heldFor p s then none
      else if s.queue.length < queueCapacity then some (addEntry p r s)
      else
        match youngestBackground s.queue with
        | some b => some (sweepAfter (carriesTag s b) (addEntry p r (removeEntry b.target s)))
        | none => none

/-- The DROP request of R58. -/
def dropRequest (s : State) : MeasureRequest :=
  ⟨PairSet.full, s.setup.autoReach, s.setup.autoAveraging, false, .drop, none⟩

/-- The DOWNSHIFT request of R39: those of C and D whose health is UNKNOWN. -/
def downshiftRequest (p : PortId) (s : State) : MeasureRequest :=
  let h := (s.port p).train.health
  ⟨⟨false, false, h.c == .unknown, h.d == .unknown⟩, s.setup.autoReach, s.setup.autoAveraging, false, .downshift, none⟩

/-! ### Failed attempts (R18, R38, R39) -/

/-- The causes that count a four-pair failure (R18 step 4). -/
def countsFourPair : FailureCause → Bool
  | .noCommonGrade => false
  | .offerTimeout => false
  | .roleTie => false
  | .resolveTimeout => true
  | .skewLimit => true
  | .pairMissing => true
  | .qualifyTimeout => true

/-- Counts of 0..15 saturate (R18). -/
def countTo15 (n : Nat) : Nat := min 15 (n + 1)

/-- The failed attempt was at a four-pair grade and its cause counts (R18 step 4). -/
def fourPairFailure (cause : FailureCause) (t : Training) : Bool :=
  countsFourPair cause && t.grade.any fourPairGrade

/-- R18 steps 1 to 5 at the port context. -/
def noteFailure (cause : FailureCause) (t : Training) : Training :=
  let t' := clearAttempt t
  { t' with
    lastFailure := some cause
    consecutive := countTo15 t.consecutive
    fourPair := if fourPairFailure cause t then countTo15 t.fourPair else t.fourPair
    runAlerted := t.runAlerted || decide (8 ≤ countTo15 t.consecutive) }

end Sys2Proof.Machine
end

