-- ==== Sys2Proof/Machine/Channels.lean ====
section
/-! DEFINITION. Shared operations of the echo channels, the claim controller and the arbiter (Chapters 4, 5 and 9): zones
and conflicts, making and releasing claims, stopping and ending measurements, pickup, and what follows a change of the
claim view or of the arbiter's inputs. -/

namespace Sys2Proof.Machine

/-! ### Zones and conflicts (R154) -/

/-- The neighbours of a global port under a geometry, those outside 0..95 dropped (R154). -/
def neighbours (geo : Geometry) (g : Nat) : List Nat :=
  let near := match geo with
    | .singleRow => (if g = 0 then [] else [g - 1]) ++ [g + 1]
    | .stacked => (if g % 2 = 0 then [g + 1] else [g - 1]) ++ (if g < 2 then [] else [g - 2]) ++ [g + 2]
  near.filter (fun n => decide (n < 96))

/-- h lies in zone(g) (R154). -/
def inZone (geo : Geometry) (g h : GlobalPort) : Bool :=
  decide (g = h) || (neighbours geo g.val).any (fun n => n == h.val)

/-- Two targets conflict (R154). -/
def conflicts (geo : Geometry) (g h : GlobalPort) : Bool := inZone geo g h

/-- The global port of local port p. -/
def State.globalPort (s : State) (p : PortId) : GlobalPort := globalOf s.station.number p

/-- The view entries whose target conflicts with g. -/
def viewConflicts (g : GlobalPort) (s : State) : List ViewEntry :=
  s.view.filter (fun v => conflicts s.station.geometry g v.target)

/-- A claim of the view stands against an entry of a priority: any conflicting claim, but for an URGENT entry only URGENT
and NORMAL ones (R74, R86). -/
def countedConflict (pr : Priority) (g : GlobalPort) (s : State) : Bool :=
  (viewConflicts g s).any (fun v => decide (pr ≠ .urgent ∨ v.priority ≠ .background))

/-! ### Claims and their frames (R87, R99, R156, R158) -/

def holdoffTime : Nat := 500
def yieldTime : Nat := 2000

/-- The line keeps RELEASE frames from the list: STUCK or the return listen-in (R150). -/
def releaseDiscarded (s : State) : Bool := s.line.condition == .stuck || s.line.listenIn.running

/-- Takes a channel's frame of a kind out of the list. -/
def takeFrameOut (k : FrameKind) (ch : ChannelId) (s : State) : State :=
  { s with line.list := takeOut (fun f => f.isFor k ch) s.line.list }

/-- The channel's CLAIM frame is on the line (R88). -/
def claimOnLine (ch : ChannelId) (s : State) : Bool :=
  match s.line.onLine with
  | some o => o.frame.isFor .claim ch
  | none => false

/-- Entry to CLAIMING: the last claim start, the local claim with the next number, and its CLAIM frame (R82, R87, R156). -/
def enterClaiming (ch : ChannelId) (s : State) : State :=
  match (s.chan ch).meas, heldEntry ch s with
  | some m, some e =>
      let claim : LocalClaim := ⟨s.claimCounter, .queued, m.target, e.priority, m.duration, Timer.off, Timer.off⟩
      let s1 := s.modChan ch (fun c => { c with phase := .claiming, settle := Timer.off, settled := false, claim := some claim })
      let s2 := { s1 with
        claimCounter := s.claimCounter + 1
        budget := { s.budget with lastClaimStart := some s.now, pace := Timer.start (1000 * s.setup.paceInterval), pacePassed := false } }
      placeFrame ⟨.claim, claimPayload claim, some ch, false⟩ s2
  | _, _ => s

/-- Releases the channel's sent claim: a RELEASE is placed, or discarded at its placement under line trouble (R99, R150, R158). That
a claim released out of HOLDOFF or WAIT_YIELD keeps its hold-off or yield timer running, without effect, until the claim ends is the
model's choice (assumption log 38). -/
def releaseClaim (ch : ChannelId) (s : State) : State :=
  match (s.chan ch).claim with
  | none => s.modChan ch (fun c => { c with phase := .idle })
  | some claim =>
      if releaseDiscarded s then s.modChan ch (fun c => { c with phase := .idle, claim := none })
      else
        placeFrame ⟨.release, releasePayload claim, some ch, false⟩
          (s.modChan ch (fun c => { c with phase := .releasing, claim := some { claim with state := .releasing } }))

/-! ### Ending a measurement (R69, R96 to R98) -/

/-- The channel's measurement is over: the values of its entry, its stop outcome, its sequence number and its working set go (R84,
R85, Table 5-7). Settled, position, shots launched, sums and results stay (assumption log 39). That its timers stand at 0 is the
model's choice (assumption log 38). -/
def endMeasurement (c : Channel) : Channel :=
  { c with meas := none, settle := Timer.off, stop := none, sequence := none, shot := Timer.off, working := none }

/-- The partial sums are discarded (R94, R96, R98). -/
def discardSums (c : Channel) : Channel := { c with sums := PerPair.const (PerPhase.const []) }

/-- What a stop that takes effect leaves of a measurement, by its outcome: the sums and results are discarded (R96, Table 5-7), and a
giving back also discards the position and returns shots launched to 0 (R98). -/
def stopMeasurement (o : StopOutcome) (c : Channel) : Channel :=
  let stopped := { discardSums (endMeasurement c) with results := [] }
  match o with
  | .cancelled => stopped
  | .portDisabled => stopped
  | .preempted => { stopped with stage := .gap, launched := 0 }
  | .withdrawn => { stopped with stage := .gap, launched := 0 }

/-- What the end of a burst leaves of a measurement: after a failed busy check the partial sums go too (R94). -/
def burstMeasurement (o : FinalOutcome) (c : Channel) : Channel :=
  match o with
  | .busyLine _ _ => discardSums (endMeasurement c)
  | .complete _ _ => endMeasurement c
  | .cancelled => endMeasurement c
  | .portDisabled => endMeasurement c
  | .skippedLinkUp => endMeasurement c

/-- A channel as every pickup starts it, and as one that ends at once leaves it: shots launched 0, settled no, sums, results and stop
outcome empty, no entry's values (R85, R86). -/
def clearMeasurement (c : Channel) : Channel :=
  { c with meas := none, settle := Timer.off, settled := false, stop := none, sequence := none, stage := .gap
           shot := Timer.off, launched := 0, sums := PerPair.const (PerPhase.const []), results := [], working := none }

/-- R98, R68: the entry goes back to WAITING; CHANNEL is removed, and AWAIT added for an automatic entry. -/
def giveBack (ch : ChannelId) (s : State) : State :=
  match heldEntry ch s with
  | none => s
  | some e =>
      unhold e.target
        (fun h => { h with channel := false, await := h.await || (h.channel && automaticOrigin e.origin) })
        (setHolder e.target none s)

/-- The measurement of a channel ends with a final outcome, or its entry is given back. -/
def endWith (ch : ChannelId) (o : StopOutcome) (s : State) : State :=
  let s' := match (s.chan ch).meas with
    | none => s
    | some m =>
        match o with
        | .cancelled => finalOutcome m.port .cancelled s
        | .portDisabled => finalOutcome m.port .portDisabled s
        | .preempted => giveBack ch s
        | .withdrawn => giveBack ch s
  s'.modChan ch (stopMeasurement o)

/-- The outcome when a further stop is taken (R79, R96). -/
def mergeStop (old : Option StopOutcome) (new : StopOutcome) : StopOutcome :=
  match old, new with
  | none, o => o
  | some .portDisabled, _ => .portDisabled
  | some _, .portDisabled => .portDisabled
  | some .cancelled, _ => .cancelled
  | some _, .cancelled => .cancelled
  | some o, _ => o

/-- The claim of a channel whose CLAIM has not been sent ends without a RELEASE, and the channel is IDLE (R88, R158). -/
def dropUnsentClaim (ch : ChannelId) (s : State) : State :=
  (takeFrameOut .claim ch s).modChan ch (fun c => { c with phase := .idle, claim := none })

/-- The channel's claim has been sent intact. -/
def claimSent (c : Channel) : Bool :=
  match c.claim with
  | some claim => claim.state != .queued
  | none => false

/-- A stop takes effect (R97, Table 5-6): the measurement ends with the outcome; a sent claim is released, an unsent one
ends. -/
def stopNow (ch : ChannelId) (o : StopOutcome) (s : State) : State :=
  if claimSent (s.chan ch) then releaseClaim ch (endWith ch o s)
  else dropUnsentClaim ch (endWith ch o s)

/-- A stop is taken by a channel (R96, R97): at once, or pending while its CLAIM is on the line (R88) or its capture is
open. -/
def stopChannel (ch : ChannelId) (o : StopOutcome) (s : State) : State :=
  let c := s.chan ch
  let o' := mergeStop c.stop o
  match c.phase with
  | .idle => s
  | .releasing => s
  | .preparing => stopNow ch o' s
  | .claiming => if claimOnLine ch s then s.modChan ch (fun c => { c with stop := some o' }) else stopNow ch o' s
  | .waitYield => stopNow ch o' s
  | .bursting => if c.stage = .capture then s.modChan ch (fun c => { c with stop := some o' }) else stopNow ch o' s

/-- The channel that holds port p's measurement. -/
def channelOf (p : PortId) (s : State) : Option ChannelId :=
  if (s.chan 0).meas.any (fun m => decide (m.port = p)) then some 0
  else if (s.chan 1).meas.any (fun m => decide (m.port = p)) then some 1 else none

/-! ### Burst (R89, R91, R125) -/

/-- Entry to BURSTING: the claim ACTIVE, the next sequence number, the first shot period (R89, R91, R125). -/
def enterBursting (ch : ChannelId) (s : State) : State :=
  let w := match heldEntry ch s with
    | some e => captureWindow e.reach
    | none => 0
  let s' := s.modChan ch (fun c =>
    { c with
      phase := .bursting, sequence := some s.sequence, stage := .gap, shot := Timer.start 16, launched := 0
      sums := PerPair.const (zeroSums w), results := [], working := none
      claim := c.claim.map (fun l => { l with state := .active, holdoff := Timer.off, yieldTimer := Timer.off }) })
  { s' with sequence := s.sequence + 1 }

/-- Shots on one pair: 4 × N (R91). -/
def shotsPerPair (e : Entry) : Nat := 4 * averagingCount e.averaging

/-- The driven pair of shot i (counted from 0) of an entry's burst (R91). -/
def drivenPair (e : Entry) (i : Nat) : Pair := e.pairs.members.getD (i / shotsPerPair e) .A

/-- The sampling phase of shot i (R91). -/
def shotPhase (i : Nat) : Nat := slotPhase (i % 4)

/-- The repetition of shot i (R91). -/
def shotRepetition (e : Entry) (i : Nat) : Nat := i % shotsPerPair e / 4

/-- The shot in progress: the next one in a listen gap, the launched one after (Table 5-1, assumption log 14). -/
def Channel.shotIndex (c : Channel) : Nat :=
  match c.stage with
  | .gap => c.launched
  | .capture => c.launched - 1
  | .recovery => c.launched - 1

/-- The distance unit's settings for a port (Table 6-1, R104). -/
def echoSettings (p : PortId) (s : State) : EchoSettings :=
  { delays := s.setup.delay, table := s.segments p, alpha := s.setup.alpha, detect := s.setup.detect
    mismatch := s.setup.mismatch, junctionLimit := s.setup.junctionLimit, cross := s.setup.cross }

/-- Calibration data of a port; zeros where there is none (assumption log 20). -/
def calibrationOf (p : PortId) (s : State) : PortCal :=
  match s.station.calibration with
  | none => ⟨PerPair.const 0, PerPair.const ⟨[], [], []⟩⟩
  | some v => (v[p.val]).getD ⟨PerPair.const 0, PerPair.const ⟨[], [], []⟩⟩

/-- The distance unit returns the result of the pair in the channel's working set, and empties the set (R103). -/
def returnResult (ch : ChannelId) (s : State) : State :=
  match (s.chan ch).working with
  | none => s
  | some w =>
      let cal := calibrationOf w.port s
      let r := processPair (echoSettings w.port s) (cal.q0.get w.driven) ((cal.templates.get w.driven).get w.reach) w
      s.modChan ch (fun c => { c with results := c.results ++ [(w.driven, r)], working := none })

def notMeasured : PairResult := ⟨.notMeasured, none, none, false, []⟩
def busyResult : PairResult := ⟨.busy, none, none, false, []⟩

/-- The four pair results of a record from the channel's list; `busy` is the pair a busy check interrupted (R94, R126). -/
def recordPairs (results : List (Pair × PairResult)) (busy : Option Pair) : PerPair PairResult :=
  PerPair.ofFn (fun x =>
    match results.find? (fun r => decide (r.1 = x)) with
    | some r => r.2
    | none => if busy = some x then busyResult else notMeasured)

/-- The burst ends with a final outcome, and the claim is released (R94, R95, R99). -/
def finishBurst (ch : ChannelId) (o : FinalOutcome) (s : State) : State :=
  match (s.chan ch).meas with
  | none => s
  | some m => releaseClaim ch ((finalOutcome m.port o s).modChan ch (burstMeasurement o))

/-! ### Pickup and the arbiter (R73 to R76) -/

/-- The values computed at pickup (R85). -/
def measurementOf (s : State) (e : Entry) : Measurement :=
  let shots := e.pairs.size * 4 * averagingCount e.averaging
  ⟨e.target, s.globalPort e.target, shots, (shots + 3) / 4 + 1⟩

/-- The channel, cleared at its pickup, takes an entry's measurement, in a phase (R85). -/
def beginMeasurement (ch : ChannelId) (ph : Phase) (m : Measurement) (s : State) : State :=
  s.modChan ch (fun c => { c with phase := ph, meas := some m })

/-- A pickup starts: the entry is held by the channel, which keeps nothing of an earlier measurement (R85). -/
def startPickup (ch : ChannelId) (e : Entry) (s : State) : State :=
  (setHolder e.target (some ch) s).modChan ch clearMeasurement

/-- The pickup checks (R76). One that ends at once leaves the channel IDLE and cleared (R85). -/
def pickup (ch : ChannelId) (e : Entry) (s : State) : State :=
  let s' := startPickup ch e s
  let m := measurementOf s e
  let claiming := enterClaiming ch (beginMeasurement ch .claiming m (hold e.target addChannelHold s'))
  match (s.port e.target).train.state with
  | .disabled => finalOutcome e.target .portDisabled s'
  | .up =>
      if e.intrusive then
        (beginMeasurement ch .preparing m (hold e.target addChannelHold (dropLink e.target .heldForMeasurement s'))).modChan ch
          (fun c => { c with settle := Timer.start (settleTime s.setup.dropSettle) })
      else finalOutcome e.target .skippedLinkUp s'
  | .offline => claiming
  | .dormant => claiming
  | .settling => claiming
  | .offering => claiming
  | .resolving => claiming
  | .qualifying => claiming
  | .backoff => claiming
  | .held => claiming

/-- The station-level conditions of an offer (R73). -/
def offersAllowed (s : State) : Bool :=
  s.station.phase == .run && s.line.condition != .stuck && !s.line.listenIn.running && !s.line.duplicate &&
    s.station.announced

/-- Non-urgent pickups are not spaced at this moment (R82). -/
def paceAllows (s : State) : Bool := !s.budget.paced || s.budget.lastClaimStart.isNone || s.budget.pacePassed

/-- An URGENT or NORMAL entry waits (the hold rule of R74). -/
def foregroundWaits (s : State) : Bool := s.queue.any (fun e => e.waiting && e.priority != .background)

/-- R74: the entry is eligible for the channel. -/
def eligible (ch : ChannelId) (s : State) (e : Entry) : Bool :=
  let g := s.globalPort e.target
  e.waiting &&
  !((s.chan (otherChannel ch)).meas.any (fun m => conflicts s.station.geometry g m.target)) &&
  !(countedConflict e.priority g s) &&
  (e.priority != .background || (!foregroundWaits s && ch == 0)) &&
  (e.priority == .urgent || paceAllows s)

/-- The offer to one channel: the first eligible waiting entry in queue order (R73). -/
def offerTo (ch : ChannelId) (s : State) : Option State :=
  if offersAllowed s && (s.chan ch).phase == .idle then (s.queue.find? (eligible ch s)).map (fun e => pickup ch e s)
  else none

/-- The arbiter's offers, channel 1 first (R75), until no free channel finds an eligible entry. Every offer that is taken
busies a channel or ends an entry, so the count given by `arbitrate` is never reached (assumption log 23). -/
def offers : Nat → State → State
  | 0, s => s
  | n + 1, s =>
      match offerTo 1 s with
      | some s' => offers n s'
      | none =>
          match offerTo 0 s with
          | some s' => offers n s'
          | none => s

/-- The arbiter makes its offers (R73). -/
def arbitrate (s : State) : State := offers 64 s

/-! ### After a change of the claim view (R86, R90, R167, R168) -/

/-- The channel waits in WAIT_YIELD and no conflicting claim remains (R90). -/
def readyToBurst (s : State) (ch : ChannelId) : Bool :=
  (s.chan ch).phase == .waitYield && (s.chan ch).meas.any (fun m => (viewConflicts m.target s).isEmpty)

/-- The channel waits in PREPARING, settled, and no counted conflict remains (R86). -/
def readyToClaim (s : State) (ch : ChannelId) : Bool :=
  (s.chan ch).phase == .preparing && (s.chan ch).settled &&
    match (s.chan ch).meas, heldEntry ch s with
    | some m, some e => !(countedConflict e.priority m.target s)
    | _, _ => false

/-- Moves on the channels that are ready; when both are, in the order of a free value (R125, R156). -/
def moveReady (ready : State → ChannelId → Bool) (move : ChannelId → State → State) (s : State) : State :=
  if ready s 0 && ready s 1 then
    let s' := { s with draws := s.draws + 1 }
    if Config.channelOneFirst s.draws then move 0 (move 1 s') else move 1 (move 0 s')
  else if ready s 0 then move 0 s
  else if ready s 1 then move 1 s
  else s

/-- A local claim in HOLDOFF, WAIT_YIELD or ACTIVE that shadows global port g (R167). -/
def claimShadows (geo : Geometry) (g : GlobalPort) (c : Channel) : Bool :=
  match c.claim with
  | none => false
  | some l =>
      (l.state == .holdoff || l.state == .waitYield || l.state == .active) && decide (l.target ≠ g) && inZone geo l.target g

/-- Local port p is shadowed (R167). -/
def shadowed (s : State) (p : PortId) : Bool :=
  let g := s.globalPort p
  s.view.any (fun v => decide (v.target ≠ g) && inZone s.station.geometry v.target g) ||
    claimShadows s.station.geometry g (s.chan 0) || claimShadows s.station.geometry g (s.chan 1)

/-- Every changed shadowed flag is handed to its port (R167). -/
def updateShadows (s : State) : State :=
  s.mapPorts (fun p pt => shadowChange s.setup.window (shadowed s p) pt)

/-- What follows a change of claims, entries or channels within a step: waiting channels move on, shadows change, and the
arbiter makes its offers (R73, R167, R168; assumption log 7). A channel that claims out of PREPARING takes its claim number
before one that claims by an offer of the same step (R156: either may be first; assumption log 6). -/
def react (s : State) : State :=
  arbitrate (updateShadows (moveReady readyToClaim enterClaiming (moveReady readyToBurst enterBursting s)))

end Sys2Proof.Machine
end

