-- ==== Sys2Proof/Machine/Training.lean ====
section
/-! DEFINITION. Link training and pair resolution (Chapters 1 and 2): the offer exchange, resolving, qualifying, failures and
backoff, and the meaning of each training event of the table. -/

namespace Sys2Proof.Machine

/-- A meaning that always answers a next state. -/
abbrev Result := Host.Outcome State Fault Refusal

/-- Applies f when port p satisfies a test: an event that cannot arise there changes nothing (assumption log 2). -/
def onPort (p : PortId) (test : Port → Bool) (f : State → State) (s : State) : State :=
  if test (s.port p) then f s else s

def Port.isIn (pt : Port) (st : TrainState) : Bool := pt.train.state == st

/-! ### Failed attempts (R18, R38, R39) -/

/-- The first downshift test of R38 and what follows it. -/
def firstDownshiftTest (p : PortId) (s : State) : State :=
  let t := (s.port p).train
  if pairFaulty t then (setDownshift p s).modPort p enterBackoff
  else if pairsSound t then (clearFourPair p s).modPort p enterBackoff
  else
    match autoRequest p (downshiftRequest p s) s with
    | some s' => react (hold p addAwaitHold (s'.modPort p (fun pt => { pt with train.downshiftCheck := true })))
    | none => noteQueueFull p (reEnter p (clearFourPair p s))

/-- R18: the attempt of port p fails with a cause. -/
def failAttempt (p : PortId) (cause : FailureCause) (s : State) : State :=
  let t := (s.port p).train
  let s1 := s.modPort p (fun pt => { pt with train := noteFailure cause pt.train })
  let s2 := if !t.runAlerted && decide (8 ≤ countTo15 t.consecutive) then raise (.trainFailed p) s1 else s1
  if fourPairFailure cause t && countTo15 t.fourPair == s.setup.downshiftAttempts && s.setup.downshiftEnable then
    firstDownshiftTest p s2
  else s2.modPort p enterBackoff

/-! ### OFFERING (R7 to R12) -/

/-- A new attempt: tie count 0, crossover STRAIGHT, attempt fields cleared, the drawn seed and first interval (R7, R8).
A G2 idle stream that already stands is received from the entry on, with the interval frozen (R8, R11; assumption log
35). -/
def newAttempt (seed : BitVec 10) (interval : Fin 41) (p : Port) : Port :=
  { p with
    train := { clearAttempt p.train with state := .offering, seed := seed, tieCount := 0, crossover := .straight }
    timers := { TrainTimers.fresh with
      offering := Timer.start offeringLimit, pageRepeat := Timer.start pagePeriod
      legacy := if p.front.g2Stream then Timer.start legacyTime else Timer.off
      alternation := ⟨!p.front.g2Stream, 0, 1000 * (50 + interval.val)⟩ } }

/-- A repetition after a tie: a fresh seed, the tie count and crossover kept, no alternation (R7, R8, R13). -/
def repeatAttempt (seed : BitVec 10) (p : Port) : Port :=
  { p with
    train := { clearAttempt p.train with state := .offering, seed := seed, pageHeard := true }
    timers := { TrainTimers.fresh with offering := Timer.start offeringLimit, pageRepeat := Timer.start pagePeriod } }

/-- Entry to OFFERING from SETTLING, with its two draws (R7, R8). -/
def enterOffering (p : PortId) (s : State) : State :=
  { s.modPort p (newAttempt (Config.seedDraw s.draws) (Config.alternationDraw (s.draws + 1))) with draws := s.draws + 2 }

/-- Return to OFFERING after a tie, with its draw (R7). -/
def repeatOffering (p : PortId) (s : State) : State :=
  { s.modPort p (repeatAttempt (Config.seedDraw s.draws)) with draws := s.draws + 1 }

/-- The pair the crossover setting assigns to transmit: A when STRAIGHT (assumption log 13). -/
def transmitPair : Crossover → Pair
  | .straight => .A
  | .crossed => .B

/-- The pair in use from the moment the A/B crossing is found: B when crossed, A when not; until then the crossover setting
assigns it (R29; assumption log 13). -/
def assignedPair (pt : Port) : Pair :=
  match pt.res.abCrossed with
  | some true => transmitPair .crossed
  | some false => transmitPair .straight
  | none => transmitPair pt.train.crossover

/-- What a port's transmitter does (Table 1-2, and the transmit state of Table 0-1). -/
inductive Transmission where
  | silent
  | pages (on : Pair)
  | resolution
  | link (grade : Grade) (on : Pair)
  deriving DecidableEq, Repr

/-- A port's transmitter by its training state (Table 1-2). A port that listens for the crossing sends nothing until a pair
qualifies (R32; assumption log 36). -/
def Port.transmission (pt : Port) : Transmission :=
  match pt.train.state, pt.train.grade with
  | .offering, _ => .pages (transmitPair pt.train.crossover)
  | .resolving, _ => if pt.res.listening then .silent else .resolution
  | .qualifying, some g => .link g (assignedPair pt)
  | .up, some g => .link g (assignedPair pt)
  | _, _ => .silent

/-- The local offer page (R7). -/
def localPage (t : Training) : OfferPage := ⟨currentOffer t, t.rolePref, t.seed, t.accepted⟩

/-- The hearing's fields are those of the page held, the acknowledge flag disregarded (R9). -/
def samePage (held : Option OfferPage) (page : OfferPage) : Bool :=
  match held with
  | none => false
  | some q => decide ({ q with ack := page.ack } = page)

/-- The effect of a hearing on the port context (R9). -/
def hearPage (page : OfferPage) (t : Training) : Training :=
  let hearing := if samePage t.partner page then min 3 (t.hearing + 1) else 1
  { t with
    partner := some page, pageHeard := true, hearing := hearing
    accepted := samePage t.partner page && (t.accepted || hearing == 3) }

/-- The timing role, or none for a tie (R13). -/
def settleRole (pref : RolePref) (seed : BitVec 10) (page : OfferPage) : Option Role :=
  match pref, page.pref with
  | .source, .follow => some .source
  | .source, .either => some .source
  | .follow, .source => some .follow
  | .follow, .either => some .follow
  | .either, .source => some .follow
  | .either, .follow => some .source
  | _, _ => if page.seed < seed then some .source else if seed < page.seed then some .follow else none

/-! ### RESOLVING (R14, R29 to R35) -/

/-- A listening pair's 2 ms run: it starts when the pair comes to stand alone, goes on while it does, and stops otherwise, at 0 by the
model's choice (R32; assumption log 38). -/
def listenRun (alone : Bool) (t : Timer) : Timer :=
  if alone then (if t.running then t else Timer.start qualifyTime) else Timer.off

/-- The 2 ms runs of the listening pairs, as the partner's signal stands on them (R32). -/
def listenRuns (f : FrontEnd) (t : TrainTimers) : TrainTimers :=
  { t with qualifyA := listenRun (f.signalA && !f.signalB) t.qualifyA
           qualifyB := listenRun (f.signalB && !f.signalA) t.qualifyB }

/-- The timers of RESOLVING after a completed exchange (R14, R30, R31). -/
def exchangeTimers : TrainTimers :=
  { TrainTimers.fresh with
    resolving := Timer.start resolvingLimit, identify := Timer.start identifyLimit
    patternRepeat := Timer.start patternPeriod }

/-- The timers of RESOLVING when the port listens; a signal that already stands alone runs from the entry on (R14, R32;
assumption log 35). -/
def listenTimers (f : FrontEnd) : TrainTimers :=
  listenRuns f { TrainTimers.fresh with
    resolving := Timer.start resolvingLimit, identify := Timer.start identifyLimit }

/-- Entry to RESOLVING at a grade: Table 2-1 and the progress cleared, the limits started (R14, R29, R31, R32). -/
def enterResolving (g : Grade) (listening : Bool) (p : Port) : Port :=
  { p with
    train := { p.train with state := .resolving, grade := some g, role := none }
    res := { Resolution.fresh with listening := listening }
    timers := if listening then listenTimers p.front else exchangeTimers }

/-- The link at the port's grade on the assigned pair (R29, R32, Table 1-2). -/
def linkSignals (p : Port) : List LinkSignal :=
  match p.train.grade with
  | some g => [.link g (assignedPair p)]
  | none => []

/-- The link at the port's grade is launched (R29, R32, Table 1-2). -/
def launchLink (p : Port) : Port := { p with front.launched := linkSignals p }

/-- Entry to QUALIFYING: the link at the grade goes out, and the timers start (R15, R29, R32, R56). -/
def enterQualifying (p : Port) : Port :=
  { launchLink p with
    train := { p.train with state := .qualifying
                            errorFree := ⟨!p.train.shadowed, 0, errorFreeTarget p.train.grade⟩ }
    timers := { TrainTimers.fresh with qualifying := Timer.start qualifyingLimit } }

/-- RESOLVING after a completed exchange. -/
def Port.exchanging (pt : Port) : Bool := pt.isIn .resolving && !pt.res.listening

/-- RESOLVING after legacy detection or at a forced grade. -/
def Port.listeningIn (pt : Port) : Bool := pt.isIn .resolving && pt.res.listening

/-- The grade of the attempt in RESOLVING uses four pairs. -/
def Port.atFourPair (pt : Port) : Bool := pt.train.grade.any fourPairGrade

/-- The pairs of the attempt's grade. -/
def Port.gradePairs (pt : Port) : PairSet :=
  match pt.train.grade with
  | some g => Machine.gradePairs g
  | none => PairSet.none

/-- An identification record after a hearing (R30). -/
def hearPattern (letter : Pair) (inverted : Bool) (r : Option IdRecord) : IdRecord :=
  match r with
  | none => ⟨letter, inverted, 1⟩
  | some r =>
      if r.count = 2 then r
      else if r.letter = letter ∧ r.inverted = inverted then { r with count := 2 }
      else ⟨letter, inverted, 1⟩

/-- The pair is identified (R30). -/
def identifiedRecord (r : Option IdRecord) : Bool := r.any (fun r => decide (2 ≤ r.count))

/-- Every pair of the grade is identified. -/
def Port.allIdentified (pt : Port) : Bool :=
  pt.gradePairs.members.all (fun x => identifiedRecord (pt.res.ident.get x))

/-- The letter heard on a local pair. -/
def heardLetter (r : Resolution) (x : Pair) : Option Pair := (r.ident.get x).map IdRecord.letter

/-- The letters heard on local pairs x and y are x and y in some order (R31). -/
def groupValid (r : Resolution) (x y : Pair) : Bool :=
  (heardLetter r x == some x && heardLetter r y == some y) ||
    (heardLetter r x == some y && heardLetter r y == some x)

/-- Crossed is yes when the first pair of a group heard the second's letter, no when it heard its own (R30); absent for any
other letter (assumption log 24). -/
def groupCrossed (r : Resolution) (x y : Pair) : Option Bool :=
  if heardLetter r x = some y then some true else if heardLetter r x = some x then some false else none

/-- The results fixed when identification completes (R30). -/
def fixResults (pt : Port) : Port :=
  let r := pt.res
  { pt with res := { r with
      abCrossed := groupCrossed r .A .B
      cdCrossed := if pt.atFourPair then groupCrossed r .C .D else none
      polarity := PerPair.ofFn (fun x => if pt.gradePairs.get x then (r.ident.get x).map IdRecord.inverted else none) } }

/-- The pairs of the invalid groups (R31). -/
def invalidPairs (pt : Port) : PairSet :=
  let ab := !(groupValid pt.res .A .B)
  let cd := pt.atFourPair && !(groupValid pt.res .C .D)
  ⟨ab, ab, cd, cd⟩

/-- A SOURCE port probes once it is identified and has heard IDENTIFIED, a FOLLOW port once it has heard PROBED (R33). -/
def mayProbe (pt : Port) : Bool :=
  pt.atFourPair && pt.res.identified &&
    match pt.train.role with
    | some .source => pt.res.partnerIdentified
    | some .follow => pt.res.partnerProbed
    | none => false

/-- All four Qp, when recorded. -/
def allQp (r : Resolution) : Option (PerPair Nat) :=
  match r.qp.a, r.qp.b, r.qp.c, r.qp.d with
  | some a, some b, some c, some d => some ⟨a, b, c, d⟩
  | _, _, _, _ => none

/-- Starts probing when it may begin and a Qp is still to be recorded; the first launch is due at once (R33, assumption log 30). -/
def beginProbing (pt : Port) : Port :=
  if mayProbe pt && !pt.res.probing && (allQp pt.res).isNone then
    { pt with res.probing := true, timers.probeRepeat := ⟨true, patternPeriod, patternPeriod⟩ }
  else pt

/-- The port launches its identification patterns, with the markers it sends, and their repetition counts from here (R30, R33,
R34). -/
def sendPatterns (pt : Port) : Port :=
  { pt with
    front.launched := [.patterns pt.gradePairs ⟨pt.res.identified, pt.res.probedSent, pt.res.checksPassed⟩]
    timers.patternRepeat := Timer.start patternPeriod }

/-- Success when the own checks have passed and the partner's DONE marker has been heard (R35). -/
def trySucceed (pt : Port) : Port :=
  if pt.res.checksPassed && pt.res.partnerDone then enterQualifying pt else pt

/-- The own checks pass: the DONE marker goes out with the patterns, and then, where the partner's DONE has been heard before, the
port succeeds, so that the link goes out after it in the same step (R34, R35; assumption log 37). -/
def passChecks (pt : Port) : Port :=
  let sent := sendPatterns { pt with res.checksPassed := true }
  if pt.res.partnerDone then
    { enterQualifying sent with front.launched := sent.front.launched ++ linkSignals sent }
  else sent

/-- After a valid map: the IDENTIFIED marker goes out with the patterns, and probing may begin; at G1 and G2 the checks have passed
(R30, R33, R35; assumption log 37). -/
def afterValidMap (pt : Port) : Port :=
  let pt' := beginProbing { pt with res.identified := true }
  if pt'.atFourPair then sendPatterns pt' else passChecks pt'

/-- Identification is complete: results fixed, map checked (R30, R31). -/
def completeIdentification (p : PortId) (s : State) : State :=
  let s' := s.modPort p fixResults
  let bad := invalidPairs (s'.port p)
  if bad.isEmpty then s'.modPort p afterValidMap
  else failAttempt p .pairMissing (s'.modPort p (fun pt => { pt with res.missing := some bad }))

/-- The skew of each pair: its Qp less the smallest (R34). -/
def skewsOf (qp : PerPair Nat) : PerPair Nat :=
  let least := min (min qp.a qp.b) (min qp.c qp.d)
  qp.map (fun q => q - least)

/-- The skew test once the fourth Qp is recorded; a SOURCE port's PROBED marker goes out with the patterns (R33, R34; assumption log
37). -/
def skewTest (p : PortId) (s : State) : State :=
  match allQp (s.port p).res with
  | none => s
  | some qp =>
      let skews := skewsOf qp
      let s' := s.modPort p (fun pt =>
        { pt with res := { pt.res with skew := skews.map some, probing := false
                                       probedSent := pt.train.role == some .source } })
      if skews.toList.any (fun k => decide (s.setup.skewLimit < k)) then
        failAttempt p .skewLimit (s'.modPort p (fun pt => if pt.res.probedSent then sendPatterns pt else pt))
      else s'.modPort p passChecks

/-- Entry to UP: counts 0, LINK_UP, the watch, and a loss of energy found at entry (R16, R46, R50, R52). What the timers hold that do
not run then is the model's choice (assumption log 38). -/
def enterUp (p : PortId) (s : State) : State :=
  let s' := raise (.linkUp p) (s.modPort p (fun pt =>
    { pt with
      train := { pt.train with state := .up, consecutive := 0, fourPair := 0, runAlerted := false
                               errorFree := pt.train.errorFree.pause }
      timers := TrainTimers.fresh
      watch := { pt.watch with
        condition := if pt.train.shadowed then .suspended else .counting
        window := if pt.train.shadowed then Timer.off else Timer.start s.setup.window
        symbol := 0, idle := 0, margin := 0, silence := Timer.off } }))
  if (s.port p).front.energy then s'
  else if (energyStatus (s.criteria p)).counts then qualityDrop p .energyLoss s'
  else s'.modPort p (fun pt => { pt with watch.silence := Timer.start silenceTime })

/-! ### Completion of the exchange (R9, R10, R13) -/

/-- The role is settled on entry to RESOLVING: recorded, or a tie that repeats or fails the attempt (R13). -/
def roleOrTie (p : PortId) (page : OfferPage) (s : State) : State :=
  let t := (s.port p).train
  match settleRole t.rolePref t.seed page with
  | some role => s.modPort p (fun pt => { pt with train.role := some role })
  | none =>
      let s' := s.modPort p (fun pt => { pt with train.tieCount := pt.train.tieCount + 1 })
      if 7 ≤ t.tieCount + 1 then failAttempt p .roleTie s' else repeatOffering p s'

/-- Grade resolution (R10). -/
def completeExchange (p : PortId) (page : OfferPage) (s : State) : State :=
  match highestGrade ((currentOffer (s.port p).train).inter page.grades) with
  | none => failAttempt p .noCommonGrade s
  | some g => roleOrTie p page (s.modPort p (enterResolving g false))

/-! ### Meanings: training events -/

/-- ENERGY_APPEARS (R2, R3, R52). -/
def execEnergyAppears (p : PortId) (atEntry : Bool) (s : State) : Result :=
  .next (onPort p (fun pt => !pt.front.energy) (fun s =>
    s.modPort p (fun pt =>
      let pt' := { pt with front.energy := true }
      match pt.train.state with
      | .dormant => if atEntry then enterSettling s.setup.wakeSettle pt' else { pt' with timers.wake := Timer.start wakeTime }
      | .up => { pt' with watch.silence := Timer.off }
      | .offline => pt'
      | .disabled => pt'
      | .settling => pt'
      | .offering => pt'
      | .resolving => pt'
      | .qualifying => pt'
      | .backoff => pt'
      | .held => pt')) s)

/-- ENERGY_WAKE (R3). -/
def execEnergyWake (p : PortId) (s : State) : Result :=
  .next (onPort p (fun pt => pt.isIn .dormant && pt.front.energy && pt.timers.wake.running)
    (fun s => s.modPort p (enterSettling s.setup.wakeSettle)) s)

/-- SETTLE_EXPIRY (R4). -/
def execSettleExpiry (p : PortId) (s : State) : Result :=
  .next (onPort p (fun pt => pt.isIn .settling) (fun s =>
    if (s.port p).front.energy then
      match (s.port p).train.forced with
      | some g => s.modPort p (enterResolving g true)
      | none => enterOffering p s
    else s.modPort p enterDormant) s)

/-- OFFER_PAGE_SEND (R7). -/
def execOfferPageSend (p : PortId) (s : State) : Result :=
  .next (onPort p (fun pt => pt.isIn .offering) (fun s =>
    s.modPort p (fun pt =>
      { pt with front.launched := [.page (localPage pt.train) (transmitPair pt.train.crossover)]
                timers.pageRepeat := Timer.start pagePeriod })) s)

/-- CROSSOVER_ALTERNATION (R8). -/
def execCrossoverAlternation (p : PortId) (s : State) : Result :=
  .next (onPort p (fun pt => pt.isIn .offering && !pt.train.pageHeard && pt.timers.alternation.running) (fun s =>
    { s.modPort p (fun pt =>
        { pt with
          train.crossover := match pt.train.crossover with
            | .straight => .crossed
            | .crossed => .straight
          timers.alternation := Timer.start (1000 * (50 + (Config.alternationDraw s.draws).val)) })
      with draws := s.draws + 1 }) s)

/-- OFFER_PAGE_HEARING (R8 to R11). -/
def execOfferPageHearing (p : PortId) (page : OfferPage) (s : State) : Result :=
  .next (onPort p (fun pt => pt.isIn .offering) (fun s =>
    let s' := s.modPort p (fun pt =>
      { pt with
        train := hearPage page pt.train
        front.g2Stream := false
        timers := { pt.timers with alternation := Timer.off, legacy := Timer.off } })
    if (s'.port p).train.accepted && page.ack then completeExchange p page s' else s') s)

/-- The timers of an attempt in which no page has been heard, as a G2 idle stream starts or breaks (R8, R11). -/
def streamTimers (present : Bool) (t : TrainTimers) : TrainTimers :=
  if present then { t with legacy := Timer.start legacyTime, alternation := t.alternation.pause }
  else { t with legacy := Timer.off, alternation := t.alternation.resume }

/-- G2_IDLE_STREAM_CHANGE (R8, R11): the front end notes the stream in every state; legacy detection runs in OFFERING while
no page has been heard. -/
def execG2IdleStreamChange (p : PortId) (present : Bool) (s : State) : Result :=
  .next (onPort p (fun pt => pt.front.g2Stream != present) (fun s =>
    s.modPort p (fun pt =>
      { pt with
        front.g2Stream := present
        timers := if pt.isIn .offering && !pt.train.pageHeard then streamTimers present pt.timers else pt.timers })) s)

/-- LEGACY_DETECTION (R11). -/
def execLegacyDetection (p : PortId) (s : State) : Result :=
  .next (onPort p (fun pt => pt.isIn .offering && !pt.train.pageHeard && pt.timers.legacy.running) (fun s =>
    if (currentOffer (s.port p).train).g2 then s.modPort p (enterResolving .G2 true)
    else failAttempt p .noCommonGrade s) s)

/-- OFFERING_LIMIT (R12). -/
def execOfferingLimit (p : PortId) (s : State) : Result :=
  .next (onPort p (fun pt => pt.isIn .offering) (failAttempt p .offerTimeout) s)

/-- IDENTIFICATION_SEND (R30). -/
def execIdentificationSend (p : PortId) (s : State) : Result :=
  .next (onPort p Port.exchanging (fun s =>
    s.modPort p sendPatterns) s)

/-- IDENTIFICATION_HEARING (R30, R31). -/
def execIdentificationHearing (p : PortId) (on letter : Pair) (inverted : Bool) (s : State) : Result :=
  .next (onPort p (fun pt => pt.exchanging && !pt.res.identified && pt.gradePairs.get on) (fun s =>
    let s' := s.modPort p (fun pt =>
      { pt with res.ident := pt.res.ident.set on (some (hearPattern letter inverted (pt.res.ident.get on))) })
    if (s'.port p).allIdentified then completeIdentification p s' else s') s)

/-- IDENTIFICATION_LIMIT (R31). -/
def execIdentificationLimit (p : PortId) (s : State) : Result :=
  .next (onPort p (fun pt => pt.exchanging && !pt.res.identified) (fun s =>
    failAttempt p .pairMissing (s.modPort p (fun pt =>
      { pt with res.missing := some (PerPair.zip (fun g r => g && !(identifiedRecord r)) pt.gradePairs pt.res.ident) }))) s)

/-- The 2 ms run of a listening pair (R32). -/
def qualifyTimer (pt : Port) : ListenPair → Timer
  | .A => pt.timers.qualifyA
  | .B => pt.timers.qualifyB

/-- PAIR_QUALIFIES (R32): the crossing is fixed, and the link goes out on the other pair. -/
def execPairQualifies (p : PortId) (on : ListenPair) (s : State) : Result :=
  .next (onPort p (fun pt => pt.listeningIn && (qualifyTimer pt on).running) (fun s =>
    s.modPort p (fun pt => enterQualifying { pt with res.abCrossed := some (on == .A) })) s)

/-- The partner's link signal on a listening pair becomes present or absent. -/
def setSignal (on : ListenPair) (present : Bool) (f : FrontEnd) : FrontEnd :=
  match on with
  | .A => { f with signalA := present }
  | .B => { f with signalB := present }

/-- PARTNER_LINK_SIGNAL_CHANGE (R32): the front end notes the signal in every state; the 2 ms runs follow it while the port
listens. -/
def execPartnerLinkSignalChange (p : PortId) (on : ListenPair) (present : Bool) (s : State) : Result :=
  .next (s.modPort p (fun pt =>
    let front := setSignal on present pt.front
    { pt with
      front := front
      timers := if pt.listeningIn then listenRuns front pt.timers else pt.timers }))

/-- CROSSING_LISTEN_LIMIT (R32). -/
def execCrossingListenLimit (p : PortId) (s : State) : Result :=
  .next (onPort p Port.listeningIn (fun s =>
    failAttempt p .pairMissing (s.modPort p (fun pt => { pt with res.missing := some ⟨true, true, false, false⟩ }))) s)

/-- IDENTIFIED_MARKER_HEARD (R33). -/
def execIdentifiedMarkerHeard (p : PortId) (s : State) : Result :=
  .next (onPort p Port.exchanging (fun s =>
    s.modPort p (fun pt => beginProbing { pt with res.partnerIdentified := true })) s)

/-- PROBED_MARKER_HEARD (R33). -/
def execProbedMarkerHeard (p : PortId) (s : State) : Result :=
  .next (onPort p Port.exchanging (fun s =>
    s.modPort p (fun pt => beginProbing { pt with res.partnerProbed := true })) s)

/-- PROBE_LAUNCH (R33). -/
def execProbeLaunch (p : PortId) (s : State) : Result :=
  .next (onPort p (fun pt => pt.exchanging && pt.res.probing && !pt.train.shadowed) (fun s =>
    s.modPort p (fun pt =>
      let out := pt.res.qp.map Option.isNone
      { pt with
        front.launched := [.probes out]
        res.probesOut := out
        timers.probeRepeat := Timer.start patternPeriod })) s)

/-- The partner turnaround Qt in quarter-ticks (R33). -/
def turnaround : Nat := 96

/-- PARTNER_PROBE (R33). -/
def execPartnerProbe (p : PortId) (on : Pair) (s : State) : Result :=
  .next (onPort p (fun pt => pt.isIn .resolving) (fun s =>
    s.modPort p (fun pt => { pt with front.launched := [.turnaround on turnaround] })) s)

/-- PROBE_RETURN (R33, R34). -/
def execProbeReturn (p : PortId) (on : Pair) (quarterTicks : Nat) (s : State) : Result :=
  .next (onPort p (fun pt =>
      pt.exchanging && pt.res.probing && pt.res.probesOut.get on && (pt.res.qp.get on).isNone &&
        decide (quarterTicks ≤ 6143)) (fun s =>
    skewTest p (s.modPort p (fun pt =>
      { pt with res := { pt.res with qp := pt.res.qp.set on (some quarterTicks)
                                     probesOut := pt.res.probesOut.set on false } }))) s)

/-- DONE_MARKER_HEARD (R35). -/
def execDoneMarkerHeard (p : PortId) (s : State) : Result :=
  .next (onPort p Port.exchanging (fun s =>
    s.modPort p (fun pt => trySucceed { pt with res.partnerDone := true })) s)

/-- RESOLVING_LIMIT (R14). -/
def execResolvingLimit (p : PortId) (s : State) : Result :=
  .next (onPort p (fun pt => pt.isIn .resolving) (failAttempt p .resolveTimeout) s)

/-- ERROR_FREE_TARGET (R15, R16, R56): while shadowed the timer stands still and the target is not reached. -/
def execErrorFreeTarget (p : PortId) (s : State) : Result :=
  .next (onPort p (fun pt => pt.isIn .qualifying && !pt.train.shadowed) (enterUp p) s)

/-- QUALIFYING_LIMIT (R15). -/
def execQualifyingLimit (p : PortId) (s : State) : Result :=
  .next (onPort p (fun pt => pt.isIn .qualifying) (failAttempt p .qualifyTimeout) s)

/-- BACKOFF_EXPIRY (R19). -/
def execBackoffExpiry (p : PortId) (s : State) : Result :=
  .next (onPort p (fun pt => pt.isIn .backoff) (reEnter p) s)

end Sys2Proof.Machine
end

