-- ==== Sys2Proof/Machine/Burst.lean ====
section
/-! DEFINITION. The shot sequence of an echo channel, the pulse budget and the sweep's period (Chapters 4 and 5): the meaning
of each event of a measurement between its claim and its release. -/

namespace Sys2Proof.Machine

/-! ### Guards -/

/-- Applies f when channel ch satisfies a test (assumption log 2). -/
def onChan (ch : ChannelId) (test : Channel → Bool) (f : State → State) (s : State) : State :=
  if test (s.chan ch) then f s else s

/-- Shots planned of the channel's measurement. -/
def Channel.planned (c : Channel) : Nat :=
  match c.meas with
  | some m => m.planned
  | none => 0

/-- The channel stands before a launch: in a listen gap, or in the recovery of a shot that is not the last (assumption
log 14). -/
def Channel.beforeLaunch (c : Channel) : Bool :=
  c.phase == .bursting && (c.stage == .gap || (c.stage == .recovery && decide (c.launched < c.planned)))

/-! ### The pulse budget (R80, R81) -/

/-- One launched shot in the budget window; the shot that takes the count over the threshold brings PACED (R80, R81). -/
def countShot (threshold paceTime : Nat) (b : Budget) : Budget :=
  let shots := min 65535 (b.shots + 1)
  if b.shots ≤ threshold ∧ threshold < shots then { b with shots := shots, paced := true, paceLeft := paceTime }
  else { b with shots := shots }

/-- The budget window expires (R80, R81). -/
def windowPassed (window : Nat) (b : Budget) : Budget :=
  let left := b.paceLeft - 1
  let b' := { b with shots := 0, window := Timer.start (4000 * window) }
  if b.paced then { b' with paceLeft := left, paced := decide (left ≠ 0) } else b'

/-! ### Launch and busy check (R92 to R94) -/

/-- No stop pends, and the port and the claim view allow a launch (R93). -/
def launchAllowed (ch : ChannelId) (m : Measurement) (s : State) : Bool :=
  (s.chan ch).stop.isNone && (s.port m.port).isIn .held && (viewConflicts m.target s).isEmpty

/-- The pulse of shot i is launched on its driven pair and counted (R91 to R93, R80). -/
def launchShot (ch : ChannelId) (m : Measurement) (e : Entry) (s : State) : State :=
  let s' := (s.modPort m.port (fun pt =>
    { pt with front.launched := [.pulse (drivenPair e (s.chan ch).launched) (pulseWidth e.reach)] })).modChan ch
    (fun c => { c with stage := .capture, launched := c.launched + 1, shot := ⟨true, 4, 16⟩ })
  { s' with budget := countShot s.setup.shotThreshold s.setup.paceTime s.budget }

/-- The launch trigger of the next shot (R93). -/
def triggerShot (ch : ChannelId) (s : State) : State :=
  match (s.chan ch).meas, heldEntry ch s with
  | some m, some e =>
      if launchAllowed ch m s then launchShot ch m e s
      else react (stopNow ch (mergeStop (s.chan ch).stop .withdrawn) s)
  | _, _ => s

/-- LAUNCH_TRIGGER (R91 to R93, R80, R81). A result still due is returned first (R95, assumption log 14). -/
def execLaunchTrigger (ch : ChannelId) (s : State) : Result :=
  .next (onChan ch Channel.beforeLaunch (fun s => triggerShot ch (returnResult ch s)) s)

/-- The final outcome of a burst with a failed busy check (R94). -/
def busyOutcome (c : Channel) (e : Entry) : FinalOutcome :=
  .busyLine (c.sequence.getD 0) (recordPairs c.results (some (drivenPair e c.launched)))

/-- The burst ends at a failed busy check (R94). -/
def failBusy (ch : ChannelId) (s : State) : State :=
  match heldEntry ch s with
  | some e => react (finishBurst ch (busyOutcome (s.chan ch) e) s)
  | none => s

/-- BUSY_CHECK_FAILURE (R94): a sample below the busy threshold fails nothing. -/
def execBusyCheckFailure (ch : ChannelId) (sample : Int) (s : State) : Result :=
  .next (onChan ch Channel.beforeLaunch (fun s =>
    if s.setup.busy ≤ (digitize sample).natAbs then failBusy ch (returnResult ch s) else s) s)

/-! ### Capture and averaging (R92, R95) -/

/-- Adds one capture to the sums of all four pairs at a phase (R92). -/
def addCapture (w k : Nat) (input : CaptureInput) (sums : PerPair (PerPhase (List Int))) : PerPair (PerPhase (List Int)) :=
  PerPair.zip (fun v samples => updatePhase v k (fun l => addSamples l (captureSamples w samples))) sums input

/-- The capture of a shot closes (R92, R95): the sums grow, and at a pair's last shot the averages go to the working set. -/
def closeCapture (e : Entry) (m : Measurement) (input : CaptureInput) (c : Channel) : Channel :=
  let w := captureWindow e.reach
  let i := c.launched - 1
  let sums := addCapture w (shotPhase i) input c.sums
  if c.launched % shotsPerPair e = 0 then
    { c with
      stage := .recovery
      sums := PerPair.const (zeroSums w)
      working := some ⟨m.port, drivenPair e i, e.reach, sums.map (averageSums (averagingCount e.averaging))⟩ }
  else { c with stage := .recovery, sums := sums }

/-- A pulse's capture is open. -/
def Channel.capturing (c : Channel) : Bool := c.phase == .bursting && c.stage == .capture

/-- CAPTURE_CLOSE (R92, R95, R96): a pending stop takes effect here. -/
def execCaptureClose (ch : ChannelId) (input : CaptureInput) (s : State) : Result :=
  .next (onChan ch Channel.capturing (fun s =>
    match (s.chan ch).stop, (s.chan ch).meas, heldEntry ch s with
    | some o, _, _ => react (stopNow ch o s)
    | none, some m, some e => s.modChan ch (closeCapture e m input)
    | none, _, _ => s) s)

/-- PAIR_RESULT_RETURN (R103, R95). -/
def execPairResultReturn (ch : ChannelId) (s : State) : Result :=
  .next (onChan ch (fun c => c.phase == .bursting && c.working.isSome) (returnResult ch) s)

/-- The last shot's recovery runs (R95). -/
def Channel.lastRecovery (c : Channel) : Bool :=
  c.phase == .bursting && c.stage == .recovery && decide (c.planned ≤ c.launched)

/-- The final outcome of a whole burst (R95, R126). -/
def completeOutcome (c : Channel) : FinalOutcome := .complete (c.sequence.getD 0) (recordPairs c.results none)

/-- BURST_END (R95, R99). -/
def execBurstEnd (ch : ChannelId) (s : State) : Result :=
  .next (onChan ch Channel.lastRecovery (fun s =>
    let s' := returnResult ch s
    react (finishBurst ch (completeOutcome (s'.chan ch)) s')) s)

/-! ### Settle, budget and sweep timers -/

/-- CHANNEL_SETTLE_EXPIRY (R86): the channel is settled, and claims when no counted conflict stands. -/
def execChannelSettleExpiry (ch : ChannelId) (s : State) : Result :=
  .next (onChan ch (fun c => c.phase == .preparing && c.settle.running) (fun s =>
    react (s.modChan ch (fun c => { c with settle := Timer.off, settled := true }))) s)

/-- BUDGET_WINDOW_EXPIRY (R80, R81, R82). -/
def execBudgetWindowExpiry (s : State) : Result :=
  .next (
    if s.station.phase == .run && s.budget.window.running then
      react { s with budget := windowPassed s.setup.budgetWindow s.budget }
    else s)

/-- PACE_INTERVAL_PASSED (R82, R73). -/
def execPaceIntervalPassed (s : State) : Result :=
  .next (
    if s.budget.pace.running then react { s with budget := { s.budget with pace := Timer.off, pacePassed := true } }
    else s)

/-- SWEEP_PERIOD_EXPIRY (R72, R71). -/
def execSweepPeriodExpiry (s : State) : Result :=
  .next (
    if s.sweep.status == .waitingPeriod then
      react (sweepAdvance { s with sweep := { s.sweep with status := .running, period := Timer.off, cursor := none } })
    else s)

end Sys2Proof.Machine
end

