-- ==== Sys2Proof/Machine/Receive.lean ====
section
/-! DEFINITION. The station line bit by bit (R136, R137, R142): what the station drives in a bit time, and what its line
controller makes of the level it reads. -/

namespace Sys2Proof.Machine

/-! ### Driving (R139, R142) -/

/-- The level the station drives in this bit time, true recessive: its own frame's bit, or its objection (R137, R142). -/
def drivenLevel (l : Line) : Bool :=
  match l.onLine with
  | some o => o.bits.getD (o.position - 1) true
  | none => !l.objecting

/-- The level of STL: dominant where any party drives dominant (section 8.2). -/
def lineLevel (s : State) : Bool := drivenLevel s.line && s.wire.headD true

/-! ### The counts (R136) -/

/-- A bit time between frames at the two counts. -/
def countBetween (bit : Bool) (l : Line) : Line :=
  { l with idleCount := if bit then min 11 (l.idleCount + 1) else 0
           dominantRun := if bit then 0 else min 65 (l.dominantRun + 1) }

/-- A bit time of a frame at the two counts: a recessive one adds nothing to the idle count. -/
def countWithin (bit : Bool) (l : Line) : Line :=
  { l with idleCount := 0, dominantRun := if bit then 0 else min 65 (l.dominantRun + 1) }

/-- The condition between frames: IDLE at an idle count of 11, which also ends WAIT_IDLE; BUSY below it. A STUCK line stays
so until its return is taken (R149, R151). -/
def settleCondition (l : Line) : Line :=
  if l.condition = .stuck then l
  else if l.idleCount = 11 then { l with condition := .idle, assembler := .ready }
  else { l with condition := .busy }

/-! ### The frame being assembled (R137, R142) -/

/-- The bit at a position is a spacer. -/
def isSpacer (bits : List Bool) (position : Nat) : Bool :=
  decide (10 ≤ position) && decide (position ≤ bodyEnd bits) && position % 9 == 1

/-- The bit at a position is covered by the check (R138). -/
def isCovered (bits : List Bool) (position : Nat) : Bool :=
  decide (2 ≤ position) && decide (position ≤ bodyEnd bits) && position % 9 != 1

/-- The frame being assembled is whole: its end bit has been read. -/
def wholeHeard (l : Line) : Bool := decide (18 ≤ l.heard.length) && decide (endPosition l.heard ≤ l.heard.length)

/-- A frame is being assembled: from its start bit until its end bit has been read. -/
def assembling (l : Line) : Bool :=
  l.condition != .stuck && !wholeHeard l && (l.assembler == .receiving || !l.heard.isEmpty)

/-- Everything of the frame being assembled goes. -/
def forgetFrame (l : Line) : Line := { l with heard := [], check := 0, spacerFault := false }

/-- A bit joins the frame being assembled, with its part in the running check and the spacer fault mark. -/
def appendBit (bit : Bool) (l : Line) : Line :=
  let position := l.heard.length + 1
  { l with heard := l.heard ++ [bit]
           check := if isCovered l.heard position then crcStep l.check bit else l.check
           spacerFault := l.spacerFault || (isSpacer l.heard position && !bit) }

/-- A bit of a frame (R136, R142): after the objection slot the assembler is READY and an objection is over; a recessive end
bit is the first bit time of the idle that follows. -/
def readWithin (bit : Bool) (l : Line) : Line :=
  let position := l.heard.length + 1
  let l' := appendBit bit (countWithin bit l)
  if position < slotPosition l.heard then l'
  else if position = slotPosition l.heard then { l' with assembler := .ready, objecting := false }
  else { l' with idleCount := if bit then 1 else 0 }

/-- A bit between frames (R136): a dominant one at an idle count of 11 starts a frame, one below it is a stray bit. -/
def readBetween (bit : Bool) (l : Line) : Line :=
  if !bit && l.idleCount == 11 && l.assembler == .ready && l.condition != .stuck then
    appendBit bit { countWithin bit l with condition := .busy, assembler := .receiving, objecting := false }
  else { settleCondition (countBetween bit l) with objecting := false }

/-- One bit time as the line controller reads it (R136, R142). -/
def readBit (bit : Bool) (l : Line) : Line :=
  if assembling l then readWithin bit l else readBetween bit (forgetFrame l)

/-- The line as a frame of these bits leaves it, heard from its start bit at idle (R142). -/
def hearBits (bits : List Bool) (l : Line) : Line :=
  bits.foldl (fun l bit => readBit bit l)
    { forgetFrame l with condition := .idle, idleCount := 11, dominantRun := 0, assembler := .ready }

/-- The frame has been read to the last bit of its check byte. -/
def checkHeard (l : Line) : Bool := decide (18 ≤ l.heard.length) && decide (l.heard.length = checkEnd l.heard)

/-- The frame is marked for objection: a spacer read dominant, or the check computed differs from the one read (R142). -/
def marked (l : Line) : Bool := l.spacerFault || l.check != checkRead l.heard

/-! ### The station's own frame on the line (R140, R141) -/

/-- The bit read last is dominant where the station sent recessive. -/
def readConflict (o : OnLine) (l : Line) : Bool :=
  l.heard.getLast? == some false && o.bits.getD (l.heard.length - 1) false

/-- The line once a conflict has been read: the one of the last bit, or else a dominant reading of the bit being driven. -/
def conflictLine (o : OnLine) (l : Line) : Line := if readConflict o l then l else readBit false l

/-- The bit position of the conflict. -/
def conflictPosition (o : OnLine) (l : Line) : Nat := if readConflict o l then l.heard.length else l.heard.length + 1

/-- The bit position of the own frame's objection slot: the last but one (Table 8-2). -/
def ownSlot (o : OnLine) : Nat := o.bits.length - 1

/-- The own frame's objection slot reads `level`: it is the bit read last, or else the next one (R147; assumption log 34). -/
def slotReads (level : Bool) (o : OnLine) (l : Line) : Bool :=
  if l.heard.length = ownSlot o then l.heard.getLast? == some level else decide (l.heard.length + 1 = ownSlot o)

/-- The line once the own frame's objection slot has been read at a level. -/
def slotLine (level : Bool) (o : OnLine) (l : Line) : Line := if l.heard.length = ownSlot o then l else readBit level l

/-- A dominant reading where the station sent recessive, in positions `first` to `last` of its own frame. -/
def conflictIn (first last : Nat) (o : OnLine) (l : Line) : Bool :=
  o.bits.getD (conflictPosition o l - 1) false && decide (first ≤ conflictPosition o l) &&
    decide (conflictPosition o l ≤ last)

/-- Byte 0 stands at bit positions 2 to 9: arbitration (R140). -/
def losesArbitration (o : OnLine) (l : Line) : Bool := conflictIn 2 9 o l

/-- From the spacer after byte 0 to the last bit of the check byte: a transmit fault (R141). -/
def faultsTransmit (o : OnLine) (l : Line) : Bool := conflictIn 10 (checkEnd o.bits) o l

end Sys2Proof.Machine
end

