-- ==== Sys2Proof/Machine/LineOps.lean ====
section
/-! DEFINITION. Shared operations of the line controller (Chapter 8): the end of a frame, what the station does with a
frame it takes (Table 8-4), the duplicate condition, line trouble at the channels, and frames leaving the list. -/

namespace Sys2Proof.Machine

/-! ### Receiving -/

/-- A frame can be taken or judged: the assembler has left WAIT_IDLE, the line is not STUCK, and the station's own frame is
not on the line (R136, R142, R149; assumption log 17). -/
def canTake (s : State) : Bool :=
  s.line.assembler != .waitIdle && s.line.condition != .stuck && s.line.onLine.isNone

/-- The end bit of the frame just heard whole reads dominant: a stray bit (R136, R141). -/
def endBitDominant (l : Line) : Bool := wholeHeard l && l.heard.getLast? == some false

/-- The line after a frame's end bit: one recessive bit time of idle, or none for a dominant one; the assembler READY (R136,
R142). -/
def lineEnded (l : Line) : Line :=
  { forgetFrame l with
    condition := .busy, idleCount := if endBitDominant l then 0 else 1
    dominantRun := if endBitDominant l then l.dominantRun else 0
    assembler := .ready, onLine := none, objecting := false }

/-- A frame ends. -/
def endFrame (s : State) : State := { s with line := lineEnded s.line }

/-! ### Line trouble at the channels (R100, R101) -/

/-- Line trouble at one channel: a measurement whose claim is not yet ACTIVE is given back WITHDRAWN (R100). -/
def troubleAt (ch : ChannelId) (s : State) : State :=
  match (s.chan ch).phase with
  | .preparing => stopChannel ch .withdrawn s
  | .claiming => stopChannel ch .withdrawn s
  | .waitYield => stopChannel ch .withdrawn s
  | .idle => s
  | .bursting => s
  | .releasing => s

/-- Line trouble at both channels. Where both give up a sent claim, channel 0's RELEASE is placed first; the spec leaves that
order open (assumption log 33). -/
def trouble (s : State) : State := troubleAt 1 (troubleAt 0 s)

/-- The duplicate condition is raised; raising it again changes nothing (R152, R101). -/
def raiseDuplicate (s : State) : State :=
  if s.line.duplicate then s else react (trouble (raise .duplicateStation { s with line.duplicate := true }))

/-! ### Table 8-4 for peer frames -/

/-- A peer frame of source `src` with the destination and length of its kind is taken at its end bit: a frame of the
station's own number raises the duplicate condition, one of 8..14 or 15 is discarded, and any other is delivered (R144). -/
def takePeer (src : BitVec 4) (deliver : StationNo → State → State) (s : State) : State :=
  if canTake s then
    match stationOf src with
    | none => endFrame s
    | some st => if st = s.station.number then raiseDuplicate (endFrame s) else deliver st (endFrame s)
  else s

/-! ### Frames leaving the list (R147) -/

/-- What a departure counts: a voiding or a transmit fault (R129, R141, R143). -/
def countDeparture (how : Departure) (c : Counters) : Counters :=
  match how with
  | .sent => c
  | .voided => { c with voided := satCount c.voided }
  | .abandoned => { c with transmitFaults := satCount c.transmitFaults }
  | .discarded => c

/-- The line once the own frame has left at its objection slot: the assembler READY, and the end bit, released like any bit
between frames, still to come as the first of the idle that follows (R136, R142, R147). -/
def slotPassed (l : Line) : Line :=
  { forgetFrame l with condition := .busy, idleCount := 0, assembler := .ready, onLine := none, objecting := false }

/-- The line as the departure of own frame o leaves it: past the objection slot for a sent or voided frame, receiving what
follows the faulting bit for an abandoned one (R141, R142, R147). -/
def lineAfter (how : Departure) (o : OnLine) (l : Line) : Line :=
  match how with
  | .sent => slotPassed (slotLine true o l)
  | .voided => slotPassed (slotLine false o l)
  | .abandoned => { conflictLine o l with onLine := none, assembler := .receiving, condition := .busy, idleCount := 0 }
  | .discarded => l

/-- The own frame o leaves the line at the bit read last or the next one: its objection slot, read recessive for a sent and
dominant for a voided frame, or a faulting bit for an abandoned one (R147, R141, R143). -/
def leavesLine (how : Departure) (o : OnLine) (l : Line) : Bool :=
  match how with
  | .sent => slotReads true o l
  | .voided => slotReads false o l
  | .abandoned => faultsTransmit o l
  | .discarded => false

/-- The line and its counters take a departure, and the first frame of a test leaves the list. -/
def departFrame (how : Departure) (test : Frame → Bool) (s : State) : State :=
  let line := match s.line.onLine with
    | some o => lineAfter how o s.line
    | none => s.line
  { s with line := { line with list := takeOut test s.line.list }
           counters := countDeparture how s.counters }

/-- A departure of a frame of a test can arise: of the own frame on the line at its bit for the first three ways; for a
discard, of a waiting frame while `trouble` stands (R147, R150). -/
def canDepart (how : Departure) (troubled : Bool) (test : Frame → Bool) (s : State) : Bool :=
  let own := s.line.onLine.any (fun o => test o.frame && leavesLine how o s.line)
  match how with
  | .sent => own
  | .voided => own
  | .abandoned => own
  | .discarded => troubled && s.line.list.any test

/-- The channel's claim and its RELEASE are over, and the channel is IDLE (R99, R158). -/
def channelReleased (c : Channel) : Channel :=
  match c.phase with
  | .releasing => { c with phase := .idle, claim := none }
  | .idle => c
  | .preparing => c
  | .claiming => c
  | .waitYield => c
  | .bursting => c

/-- A REJOIN that leaves unsent the first time is placed once more (R148); otherwise the station's own start is announced,
unless the REJOIN belongs to a line return (R184). -/
def rejoinLeft (how : Departure) (f : Frame) (s : State) : State :=
  if how != .sent && !f.retried then placeFrame { f with retried := true } s
  else if f.payload = [startCauseCode .lineReturn] then s
  else { s with station.announced := true }

def isKind (k : FrameKind) (f : Frame) : Bool := f.kind == k

end Sys2Proof.Machine
end

