-- ==== Sys2Proof/Machine/Claims.lean ====
section
/-! DEFINITION. Quiet claims (Chapter 9): the judgement of conflicts, the claim view, and the meaning of each event of a local
claim and of each peer frame taken. -/

namespace Sys2Proof.Machine

/-! ### Judging a pair (R163) -/

/-- The finding for a pair of a new and a known claim (R163). -/
inductive Finding where
  | newYields | knownYields | newLoses | knownLoses
  deriving DecidableEq, Repr

/-- The table of R163. -/
def judge (newPri : Priority) (newStation : StationNo) (knownPri : Priority) (knownStation : StationNo) : Finding :=
  if newPri = .background ∧ knownPri = .urgent then .newYields
  else if newPri = .urgent ∧ knownPri = .background then .knownYields
  else if priorityRank newPri < priorityRank knownPri then .knownLoses
  else if priorityRank knownPri < priorityRank newPri then .newLoses
  else if newStation < knownStation then .knownLoses
  else .newLoses

/-- The finding against a view entry. -/
def judgeEntry (pri : Priority) (st : StationNo) (v : ViewEntry) : Finding := judge pri st v.priority v.station

/-- View entries that conflict with g and lost to the new claim are removed (R166). -/
def removeLost (pri : Priority) (st : StationNo) (g : GlobalPort) (s : State) : State :=
  { s with view := s.view.filter (fun v =>
      !(conflicts s.station.geometry g v.target && judgeEntry pri st v == .knownLoses)) }

/-! ### The local claim at its sending (R157, R163, R165) -/

/-- The claim enters HOLDOFF as its CLAIM frame leaves the list; the hold-off timer stands until the frame's end bit, which
starts it (R157, `tickClaim`). -/
def startHoldoff (c : Channel) : Channel :=
  { c with claim := c.claim.map (fun l => { l with state := .holdoff, holdoff := Timer.off }) }

/-- What the judgement of the sent claim against the view calls for (R163, R165). -/
def ownFinding (l : LocalClaim) (s : State) : Option StopOutcome :=
  let found := (viewConflicts l.target s).map (judgeEntry l.priority s.station.number)
  if found.any (· == .newLoses) then some .withdrawn
  else if found.any (· == .newYields) then some .preempted
  else none

/-- The sent claim is judged; if it stands, the entries that lost to it go (R163, R166). -/
def judgeOwn (ch : ChannelId) (l : LocalClaim) (s : State) : State :=
  let s' := if ownFinding l s = some .withdrawn then s else removeLost l.priority s.station.number l.target s
  match ownFinding l s with
  | some o => stopNow ch (mergeStop (s.chan ch).stop o) s'
  | none =>
      match (s.chan ch).stop with
      | some o => stopNow ch o s'
      | none => s'

/-- The CLAIM has been sent intact: HOLDOFF, the judgement, and a pending stop (R157, R88). -/
def claimSentIntact (ch : ChannelId) (s : State) : State :=
  let s' := s.modChan ch startHoldoff
  match (s'.chan ch).claim with
  | some l => judgeOwn ch l s'
  | none => s'

/-- The CLAIM has left the list unsent: the claim ends, and the entry is given back WITHDRAWN unless a stop with another
outcome is pending (R88, R158). -/
def claimUnsent (ch : ChannelId) (s : State) : State := stopNow ch (mergeStop (s.chan ch).stop .withdrawn) s

/-- The channel's part when its CLAIM frame has left the line in a way (Table 8-5). -/
def claimDeparted (ch : ChannelId) (how : Departure) (s : State) : State :=
  match how with
  | .sent => claimSentIntact ch s
  | .voided => claimUnsent ch s
  | .abandoned => claimUnsent ch s
  | .discarded => s

/-- CLAIM_FRAME_DEPARTURE (R157, R88, Table 8-5). -/
def execClaimFrameDeparture (ch : ChannelId) (how : Departure) (s : State) : Result :=
  .next (
    if canDepart how false (fun f => f.isFor .claim ch) s then
      react (claimDeparted ch how (departFrame how (fun f => f.isFor .claim ch) s))
    else s)

/-! ### The end of hold-off and the yield limit (R89, R90) -/

/-- The claim waits for conflicting BACKGROUND claims to go (R89, R157). -/
def enterWaitYield (c : Channel) : Channel :=
  { c with
    phase := .waitYield
    claim := c.claim.map (fun l => { l with state := .waitYield, holdoff := Timer.off, yieldTimer := Timer.start yieldTime }) }

/-- The finding at the end of hold-off (R89; assumption log 16). -/
def endHoldoff (ch : ChannelId) (l : LocalClaim) (s : State) : State :=
  let against := viewConflicts l.target s
  if against.isEmpty then enterBursting ch s
  else if l.priority = .urgent ∧ against.all (fun v => v.priority == .background) then s.modChan ch enterWaitYield
  else stopNow ch (mergeStop (s.chan ch).stop .withdrawn) s

/-- The channel's claim in HOLDOFF. -/
def holdoffClaim (c : Channel) : Option LocalClaim :=
  match c.phase, c.claim with
  | .claiming, some l => if l.state = .holdoff then some l else none
  | _, _ => none

/-- HOLDOFF_END (R89, R157, R91, R125). -/
def execHoldoffEnd (ch : ChannelId) (s : State) : Result :=
  .next (
    match holdoffClaim (s.chan ch) with
    | some l => react (endHoldoff ch l s)
    | none => s)

/-- YIELD_LIMIT (R90). -/
def execYieldLimit (ch : ChannelId) (s : State) : Result :=
  .next (onChan ch (fun c => c.phase == .waitYield) (fun s => react (stopChannel ch .withdrawn s)) s)

/-- RELEASE_DEPARTURE (R99, R158, Table 8-5). -/
def execReleaseDeparture (ch : ChannelId) (how : Departure) (s : State) : Result :=
  .next (
    if canDepart how (releaseDiscarded s) (fun f => f.isFor .release ch) s then
      react ((departFrame how (fun f => f.isFor .release ch) s).modChan ch channelReleased)
    else s)

/-! ### A foreign CLAIM (R155, R159, R163 to R166) -/

/-- The fields of a CLAIM that R155 lets through. -/
structure ForeignClaim where
  station : StationNo
  number : Byte
  target : GlobalPort
  priority : Priority
  duration : Nat
  deriving DecidableEq, Repr

/-- The checks of R155. -/
def checkClaim (st : StationNo) (number target priority duration : Byte) : Option ForeignClaim :=
  match globalPortOf target, priorityOf priority with
  | some g, some p => if duration = 0 then none else some ⟨st, number, g, p, duration.toNat⟩
  | _, _ => none

/-- The life of a view entry beyond its burst: hold-off and 1 ms (Table 9-3). -/
def entryLife (duration : Nat) : Nat := 64 * duration + 500 + 1000

/-- The new view entry of a claim taken now (R159 step 4). -/
def viewEntryOf (c : ForeignClaim) (now : Nat) : ViewEntry :=
  { station := c.station, number := c.number, active := false, target := c.target, priority := c.priority
    duration := c.duration, activeAt := now + holdoffTime, expiry := now + entryLife c.duration }

/-- The view without the entry of a key (R159 step 1). -/
def withoutKey (st : StationNo) (number : Byte) (view : List ViewEntry) : List ViewEntry :=
  view.filter (fun v => decide (¬(v.station = st ∧ v.number = number)))

/-- The capacity of the claim view (R159). -/
def viewCapacity : Nat := 16

/-- The earliest expiry of a list, if it holds an entry. -/
def earliestExpiry : List ViewEntry → Option Nat
  | [] => none
  | v :: vs =>
      match earliestExpiry vs with
      | none => some v.expiry
      | some e => some (min v.expiry e)

/-- Removes the first entry that expires at a moment. -/
def removeFirstAt (e : Nat) : List ViewEntry → List ViewEntry
  | [] => []
  | v :: vs => if v.expiry = e then vs else v :: removeFirstAt e vs

/-- R159 step 3: a full view loses the entry with the earliest expiry, the first in view order at a tie. -/
def makeRoom (view : List ViewEntry) : List ViewEntry :=
  if view.length < viewCapacity then view
  else
    match earliestExpiry view with
    | none => view
    | some e => removeFirstAt e view

/-- The new claim is entered at the end of the view (R159 steps 3 and 4). -/
def enterView (c : ForeignClaim) (s : State) : State :=
  { s with view := makeRoom s.view ++ [viewEntryOf c s.now] }

/-- The channel's claim is known to judgements: HOLDOFF, WAIT_YIELD, ACTIVE or RELEASING (R163). -/
def knownClaim (c : Channel) : Option LocalClaim :=
  match c.claim with
  | none => none
  | some l => if l.state = .queued then none else some l

/-- The finding of a new foreign claim against a local claim that conflicts with it (R163). -/
def localFinding (c : ForeignClaim) (ch : ChannelId) (s : State) : Option Finding :=
  match knownClaim (s.chan ch) with
  | none => none
  | some l =>
      if conflicts s.station.geometry c.target l.target then some (judge c.priority c.station l.priority s.station.number)
      else none

/-- The new claim loses a judgement (R163). -/
def claimLoses (c : ForeignClaim) (s : State) : Bool :=
  (viewConflicts c.target s).any (fun v => judgeEntry c.priority c.station v == .newLoses) ||
    localFinding c 0 s == some .newLoses || localFinding c 1 s == some .newLoses

/-- Table 9-4: the stop a standing new claim orders at a local claim of a state. -/
def localEffect (st : ClaimState) (f : Finding) : Option StopOutcome :=
  match st, f with
  | .holdoff, .knownYields => some .preempted
  | .active, .knownYields => some .preempted
  | .active, .newYields => some .withdrawn
  | .holdoff, .knownLoses => some .withdrawn
  | .waitYield, .knownLoses => some .withdrawn
  | .active, .knownLoses => some .withdrawn
  | _, _ => none

/-- The effect of a finding on channel ch (R165). -/
def strikeLocal (ch : ChannelId) (f : Option Finding) (s : State) : State :=
  match knownClaim (s.chan ch), f with
  | some l, some f =>
      match localEffect l.state f with
      | some o => stopChannel ch o s
      | none => s
  | _, _ => s

/-- The unsent claim of a channel is withdrawn by a conflicting new claim that it could not pre-empt (R164). -/
def withdrawQueued (c : ForeignClaim) (ch : ChannelId) (s : State) : State :=
  match (s.chan ch).claim with
  | none => s
  | some l =>
      if l.state = .queued ∧ conflicts s.station.geometry c.target l.target = true ∧
          ¬(l.priority = .urgent ∧ c.priority = .background) then stopChannel ch .withdrawn s
      else s

/-- A standing new claim: lost entries go, it is entered, and local claims give way (R159, R165, R166). Where it strikes both local
claims, channel 0 gives way first, and so places its RELEASE first; the spec leaves that order open (R99, R165; assumption log
33). -/
def claimStands (c : ForeignClaim) (s : State) : State :=
  let f0 := localFinding c 0 s
  let f1 := localFinding c 1 s
  strikeLocal 1 f1 (strikeLocal 0 f0 (enterView c (removeLost c.priority c.station c.target s)))

/-- A new foreign claim is judged and taken (R159, R164). -/
def takeClaim (c : ForeignClaim) (s : State) : State :=
  let s1 := { s with view := withoutKey c.station c.number s.view }
  let s2 := if claimLoses c s1 then s1 else claimStands c s1
  withdrawQueued c 1 (withdrawQueued c 0 s2)

/-- A CLAIM delivered to the claim controller (R155, R159). -/
def deliverClaim (number target priority duration : Byte) (st : StationNo) (s : State) : State :=
  match checkClaim st number target priority duration with
  | none => s
  | some c => react (takeClaim c s)

/-- CLAIM_TAKEN (R144, R155, R159, R163 to R168). -/
def execClaimTaken (src : BitVec 4) (number target priority duration : Byte) (s : State) : Result :=
  .next (takePeer src (deliverClaim number target priority duration) s)

/-! ### A foreign RELEASE or REJOIN, and the entries' own times (R160 to R162) -/

/-- The entry a RELEASE names (R161). -/
def releaseMatches (st : StationNo) (number target : Byte) (v : ViewEntry) : Bool :=
  decide (v.station = st) && decide (v.number = number) && v.target.val == target.toNat

/-- A RELEASE delivered to the claim controller (R161). -/
def deliverRelease (number target : Byte) (st : StationNo) (s : State) : State :=
  if s.view.any (releaseMatches st number target) then
    react { s with view := s.view.filter (fun v => !(releaseMatches st number target v)) }
  else { s with unknownReleases := satCount s.unknownReleases }

/-- RELEASE_TAKEN (R144, R161). -/
def execReleaseTaken (src : BitVec 4) (number target : Byte) (s : State) : Result :=
  .next (takePeer src (deliverRelease number target) s)

/-- A REJOIN delivered to the claim controller, whatever its start cause (R162). -/
def deliverRejoin (_cause : Byte) (st : StationNo) (s : State) : State :=
  react { s with view := s.view.filter (fun v => decide (v.station ≠ st)) }

/-- REJOIN_TAKEN (R144, R162). -/
def execRejoinTaken (src : BitVec 4) (cause : Byte) (s : State) : Result :=
  .next (takePeer src (deliverRejoin cause) s)

/-- The entry with a key. -/
def hasKey (st : StationNo) (number : Byte) (v : ViewEntry) : Bool := decide (v.station = st ∧ v.number = number)

/-- VIEW_ENTRY_ACTIVE (R160, R168). -/
def execViewEntryActive (st : StationNo) (number : Byte) (s : State) : Result :=
  .next (
    if s.view.any (fun v => hasKey st number v && !v.active) then
      react { s with view := s.view.map (fun v => if hasKey st number v then { v with active := true } else v) }
    else s)

/-- VIEW_ENTRY_EXPIRY (R160, R168). -/
def execViewEntryExpiry (st : StationNo) (number : Byte) (s : State) : Result :=
  .next (
    if s.view.any (hasKey st number) then react { s with view := s.view.filter (fun v => !(hasKey st number v)) }
    else s)

end Sys2Proof.Machine
end

