-- ==== Sys2Proof/Machine/Requests.lean ====
section
/-! DEFINITION. The request layer (Chapter 10): the checks of R173 with the phases of R175, the overrun check of R146, and the
REPORT that answers (R171). -/

namespace Sys2Proof.Machine

/-! ### Answers (Table 10-2, R171) -/

/-- Refusal reasons, in the order of Table 10-2. -/
inductive Reason where
  | locked | notSetup | notRunning | badPort | portDisabled | queueFull | badGrade | badTarget | badKind | busy
  deriving DecidableEq, Repr

def reasonCode : Reason → Byte
  | .locked => 0
  | .notSetup => 1
  | .notRunning => 2
  | .badPort => 3
  | .portDisabled => 4
  | .queueFull => 5
  | .badGrade => 6
  | .badTarget => 7
  | .badKind => 8
  | .busy => 9

/-- What a block answers: ACCEPTED with or without the adjusted flag, DATA with the query kind and the page, or REFUSED. -/
inductive Answer where
  | accepted (adjusted : Bool)
  | data (query : Byte) (page : List Byte)
  | refused (reason : Reason)
  deriving DecidableEq, Repr

/-- The bytes of an answer after the request kind (R171). -/
def answerBytes : Answer → List Byte
  | .accepted adjusted => [flagByte adjusted]
  | .data query page => 2 :: query :: page
  | .refused reason => [3, reasonCode reason]

/-- What a block gives back: its answer (none for RESET STATION, R172) and the state after the request. -/
abbrev Served := Option Answer × State

/-- Each REFUSED LOCKED counts the locked refusals counter (R173, Table 7-3). -/
def countRefusal (a : Answer) (c : Counters) : Counters :=
  if a = .refused .locked then { c with lockedRefusals := satCount c.lockedRefusals } else c

/-- The REPORT frame of an answer. -/
def reportFrame (kind : Byte) (a : Answer) : Frame := ⟨.report, kind :: answerBytes a, none, false⟩

/-- The answer is counted and its REPORT placed (R171). -/
def reply (kind : Byte) (a : Answer) (s : State) : State :=
  placeFrame (reportFrame kind a) { s with counters := countRefusal a s.counters }

/-! ### The checks of R173 -/

/-- Byte i of a payload. -/
def byteAt (payload : List Byte) (i : Nat) : Byte := payload.getD i 0

/-- Check 1: the request kind code is 1..9. -/
def kindListed (kind : Byte) : Bool := decide (1 ≤ kind.toNat) && decide (kind.toNat ≤ 9)

/-- The bytes a TRAIN sub-kind needs (Table 10-1). -/
def trainBytes (sub : Byte) : Nat := if sub = 2 then 4 else if sub = 3 then 5 else 3

/-- The bytes a query kind needs (Tables 10-1 and 10-4). -/
def queryBytes (query : Byte) : Nat :=
  if query = 1 ∨ query = 2 then 4
  else if query = 4 then 5
  else if query = 3 ∨ query = 5 ∨ query = 6 ∨ query = 7 then 3
  else 2

/-- The bytes a setup item needs (Table 11-3); an unlisted item needs those up to its number (R173). -/
def setupBytes (item : Byte) : Nat :=
  let n := item.toNat
  if n ≤ 4 then 5
  else if n ≤ 6 ∨ n = 8 ∨ n = 9 ∨ n = 25 then 4
  else if n ≤ 27 then 3
  else 2

/-- Check 2: the bytes the kind needs, by sub-kind, query kind or setup item. -/
def bytesNeeded (payload : List Byte) : Nat :=
  let kind := byteAt payload 0
  if kind = 1 ∨ kind = 2 then 6
  else if kind = 3 ∨ kind = 9 then 3
  else if kind = 4 then (if payload.length < 3 then 3 else trainBytes (byteAt payload 2))
  else if kind = 5 then (if payload.length < 2 then 2 else queryBytes (byteAt payload 1))
  else if kind = 6 then (if payload.length < 2 then 2 else setupBytes (byteAt payload 1))
  else 1

/-- Check 3: a request sent to destination 15 is of kind LOCK or CANCEL (R176). -/
def destinationOk (broadcast : Bool) (kind : Byte) : Bool := !broadcast || kind == 3 || kind == 7

/-- Check 4: the phase refusal of a kind (Table 10-3). -/
def phaseRefusal (kind : Byte) (st : Station) : Option Reason :=
  if kind = 1 ∨ kind = 2 then (if st.phase = .run then none else some .notRunning)
  else if kind = 6 then
    (if st.phase = .setup then none else if st.locked then some .locked else some .notSetup)
  else if kind = 7 then (if st.phase = .setup ∨ st.locked = true then none else some .notSetup)
  else if kind = 8 then (if st.phase = .setup then none else some .notSetup)
  else none

/-- Check 5: every coded operand names a listed value. -/
def codedOk (payload : List Byte) : Bool :=
  let kind := byteAt payload 0
  if kind = 1 ∨ kind = 2 then (reachOf (byteAt payload 3)).isSome
  else if kind = 4 then
    decide ((byteAt payload 2).toNat ≤ 5) && (byteAt payload 2 != 3 || (rolePrefOf (byteAt payload 4)).isSome)
  else if kind = 5 then
    decide ((byteAt payload 1).toNat ≤ 7) && (byteAt payload 1 != 4 || (pairOf (byteAt payload 3)).isSome)
  else if kind = 6 then
    decide ((byteAt payload 1).toNat ≤ 27) && (byteAt payload 1 != 19 || (reachOf (byteAt payload 2)).isSome)
  else if kind = 9 then decide ((byteAt payload 1).toNat ≤ 1)
  else true

/-- Check 6: a FORCE grade is G1 or G2. -/
def gradeOk (payload : List Byte) : Bool :=
  if byteAt payload 0 = 4 ∧ byteAt payload 2 = 2 then byteAt payload 3 == 1 || byteAt payload 3 == 2 else true

/-- The port operand of a request, where check 7 reads one. -/
def portOperand (payload : List Byte) : Option Byte :=
  let kind := byteAt payload 0
  if kind = 1 ∨ kind = 4 then some (byteAt payload 1)
  else if kind = 3 then (if (byteAt payload 2).getLsbD 0 then none else some (byteAt payload 1))
  else if kind = 5 then
    (if 1 ≤ (byteAt payload 1).toNat ∧ (byteAt payload 1).toNat ≤ 5 then some (byteAt payload 2) else none)
  else if kind = 6 then
    (if 1 ≤ (byteAt payload 1).toNat ∧ (byteAt payload 1).toNat ≤ 6 then some (byteAt payload 2) else none)
  else if kind = 9 then (if byteAt payload 1 = 0 then some (byteAt payload 2) else none)
  else none

/-- Check 7: every port operand is 0..11. -/
def portOk (payload : List Byte) : Bool :=
  match portOperand payload with
  | none => true
  | some b => decide (b.toNat < 12)

/-- Check 8: every page or index operand lies in the range of its query (Table 10-4). -/
def pageOk (payload : List Byte) : Bool :=
  if byteAt payload 0 = 5 then
    let q := byteAt payload 1
    if q = 1 then decide ((byteAt payload 3).toNat ≤ 4)
    else if q = 2 then decide ((byteAt payload 3).toNat ≤ 1)
    else if q = 4 then decide ((byteAt payload 4).toNat ≤ 5)
    else if q = 6 then decide ((byteAt payload 2).toNat ≤ 2)
    else if q = 7 then decide ((byteAt payload 2).toNat ≤ 15)
    else true
  else true

/-- R173: the first check that fails gives the refusal. -/
def firstFailure (broadcast : Bool) (payload : List Byte) (st : Station) : Option Reason :=
  if kindListed (byteAt payload 0) = false then some .badKind
  else if payload.length < bytesNeeded payload then some .badKind
  else if destinationOk broadcast (byteAt payload 0) = false then some .badKind
  else
    match phaseRefusal (byteAt payload 0) st with
    | some r => some r
    | none =>
        if codedOk payload = false then some .badKind
        else if gradeOk payload = false then some .badGrade
        else if portOk payload = false then some .badPort
        else if pageOk payload = false then some .badTarget
        else none

/-! ### Taking a request (R146, R171) -/

/-- Two REPORT frames are in the list (R146). -/
def overrun (s : State) : Bool := decide (2 ≤ countKind .report s.line.list)

/-- A REQUEST dropped unanswered (R146). -/
def dropRequestFrame (s : State) : State :=
  raise .requestOverrun { s with counters := { s.counters with overruns := satCount s.counters.overruns } }

/-- A request that has passed its checks is served by its block, and the answer's REPORT placed in the same step (R171). -/
def serveRequest (kind : Byte) (serve : State → Served) (s : State) : State :=
  let r := serve s
  match r.1 with
  | some a => reply kind a r.2
  | none => r.2

/-- The request layer with a frame that R144 has taken (R146, R171, R173). -/
def requestLayer (broadcast : Bool) (payload : List Byte) (serve : State → Served) (s : State) : State :=
  if overrun s then dropRequestFrame s
  else
    match firstFailure broadcast payload s.station with
    | some r => reply (byteAt payload 0) (.refused r) s
    | none => serveRequest (byteAt payload 0) serve s

/-- A REQUEST frame of the console is taken at its end bit (R144, R146). -/
def takeRequest (broadcast : Bool) (payload : List Byte) (serve : State → Served) (s : State) : State :=
  if canTake s then requestLayer broadcast payload serve (endFrame s) else s

/-- A request answered REFUSED with no effect. -/
def refuse (r : Reason) (s : State) : Served := (some (.refused r), s)

/-- A request answered ACCEPTED. -/
def accept (adjusted : Bool) (s : State) : Served := (some (.accepted adjusted), s)

/-- Serves a request of a port operand; the operand has passed check 7. -/
def withPort (port : Byte) (f : PortId → State → Served) (s : State) : Served :=
  match portOf port with
  | some p => f p s
  | none => refuse .badPort s

end Sys2Proof.Machine
end

