-- ==== Sys2Proof/Machine/Line.lean ====
section
/-! DEFINITION. The station line (Chapter 8): the meaning of each event of sending, arbitration, objection, departure and line
trouble. -/

namespace Sys2Proof.Machine

/-! ### Sending (R139 to R141) -/

/-- The station may start its head frame (R139). -/
def mayStart (s : State) : Bool :=
  !s.line.list.isEmpty && s.line.onLine.isNone && s.line.assembler == .ready && s.line.idleCount == 11 &&
    s.line.condition == .idle && !s.line.listenIn.running && s.station.phase != .listen

/-- The bits of a station's frame (R137): destination 15, the latched station number as source. -/
def stationFrameBits (st : StationNo) (f : Frame) : List Bool := frameBits (frameKindCode f.kind) st.val 15 f.payload

/-- The start bit of the head frame is driven, and the assembler receives the station's own frame from it on (R139, R136,
R142). -/
def startFrame (f : Frame) (s : State) : State :=
  { s with line := { forgetFrame s.line with
      condition := .busy, idleCount := 0, assembler := .receiving, objecting := false
      onLine := some ⟨f, stationFrameBits s.station.number f, 1⟩ } }

/-- FRAME_START (R139, R137, R145). -/
def execFrameStart (s : State) : Result :=
  .next (
    match s.line.list with
    | [] => s
    | f :: _ => if mayStart s then startFrame f s else s)

/-- The station stops driving and receives the rest of the frame (R140, R141). -/
def stopDriving (l : Line) : Line := { l with onLine := none, assembler := .receiving }

/-- A stop pending on a CLAIM that has just left the line unsent takes effect as in QUEUED (R88). -/
def pendingClaimStop (f : Frame) (s : State) : State :=
  match f.kind, f.channel with
  | .claim, some ch =>
      match (s.chan ch).stop with
      | some o => react (stopNow ch o s)
      | none => s
  | _, _ => s

/-- ARBITRATION_LOSS (R140, R88): a bit of byte 0 sent recessive reads dominant. The frame keeps its place in the list, and
the bits read so far are received on. -/
def execArbitrationLoss (s : State) : Result :=
  .next (
    match s.line.onLine with
    | none => s
    | some o =>
        if losesArbitration o s.line then
          pendingClaimStop o.frame
            { s with line := stopDriving (conflictLine o s.line)
                     counters := { s.counters with arbitrationLosses := satCount s.counters.arbitrationLosses } }
        else s)

/-- What the block that placed a frame does at its departure (Table 8-5); the frame has left the list. -/
def departed (how : Departure) (f : Frame) (s : State) : State :=
  match f.kind, f.channel with
  | .claim, some ch => react (claimDeparted ch how s)
  | .release, some ch => react (s.modChan ch channelReleased)
  | .rejoin, _ => react (rejoinLeft how f s)
  | _, _ => s

/-- TRANSMIT_FAULT (R141, R147): a bit sent recessive between byte 0 and the objection slot reads dominant. The frame on the
line is abandoned. -/
def execTransmitFault (s : State) : Result :=
  .next (
    match s.line.onLine with
    | none => s
    | some o =>
        if faultsTransmit o s.line then
          departed .abandoned o.frame
            (departFrame .abandoned (fun f => decide (f = o.frame)) s)
        else s)

/-! ### Departures of the station's own frames (R147, R148, R132) -/

/-- REPORT_DEPARTURE (R147, R146): the answer is not placed again, and its place is free. -/
def execReportDeparture (how : Departure) (s : State) : Result :=
  .next (
    if canDepart how (s.line.condition == .stuck) (isKind .report) s then departFrame how (isKind .report) s else s)

/-- ALERT_DEPARTURE (R147, R132): an ALERT is not replaced. -/
def execAlertDeparture (how : Departure) (s : State) : Result :=
  .next (if canDepart how false (isKind .alert) s then departFrame how (isKind .alert) s else s)

/-- The REJOIN of the list. -/
def listedRejoin (s : State) : Option Frame := s.line.list.find? (isKind .rejoin)

/-- REJOIN_DEPARTURE (R147, R148, R184, R73). -/
def execRejoinDeparture (how : Departure) (s : State) : Result :=
  .next (
    match listedRejoin s with
    | none => s
    | some f =>
        if canDepart how false (isKind .rejoin) s then
          react (rejoinLeft how f (departFrame how (isKind .rejoin) s))
        else s)

/-! ### Receiving (R142, R152) -/

/-- The line when these bits of a frame have been read: the frame being assembled, or one heard from its start bit. -/
def checkedLine (bits : List Bool) (l : Line) : Line := if l.heard = bits ∧ l.objecting = false then l else hearBits bits l

/-- A receiver has read a frame to the last bit of its check byte and marked it (R142). -/
def objectionDue (l : Line) : Bool :=
  l.onLine.isNone && l.assembler == .receiving && !l.objecting && checkHeard l && marked l

/-- RECEIVE_CHECK_FAILURE (R137, R138, R142): the check byte is the one the frame's own length places; a frame with a good
check and recessive spacers is not objected to. The station drives the objection slot that comes next. -/
def execReceiveCheckFailure (bytes : List Byte) (check : Byte) (spacers : List Bool) (s : State) : Result :=
  .next (
    if canTake s && objectionDue (checkedLine (bitsToCheck bytes check spacers) s.line) then
      { s with line := { checkedLine (bitsToCheck bytes check spacers) s.line with objecting := true }
               counters := { s.counters with checkFailures := satCount s.counters.checkFailures } }
    else s)

/-- OWN_NUMBER_FRAME_TAKEN (R144, R152, R101), whatever the frame's kind, destination and payload. -/
def execOwnNumberFrameTaken (_kind _dest : BitVec 4) (_payload : List Byte) (s : State) : Result :=
  .next (if canTake s then raiseDuplicate (endFrame s) else s)

/-! ### Idle, stray bits and line trouble (R136, R149 to R151) -/

/-- No frame is being received or sent but one that the station objects to, and the line is not STUCK. -/
def betweenFrames (s : State) : Bool :=
  s.line.onLine.isNone && (s.line.assembler != .receiving || s.line.objecting) && s.line.condition != .stuck

/-- LINE_IDLE (R136). -/
def execLineIdle (s : State) : Result :=
  .next (
    if betweenFrames s then
      { s with line := { forgetFrame s.line with
          condition := .idle, idleCount := 11, dominantRun := 0, assembler := .ready, objecting := false } }
    else s)

/-- A channel's RELEASE is discarded: the claim ends and the channel is IDLE (R150, R99). -/
def releaseAllDiscarded (s : State) : State :=
  let s' := { s with line.list := s.line.list.filter (fun f => !(isKind .release f || isKind .report f)) }
  (s'.modChan 0 channelReleased).modChan 1 channelReleased

/-- The line becomes STUCK (R149). The frame being received is abandoned: the assembler is READY for the next one, and a
station that still waits for idle goes on waiting (the spec names no state; assumption log 33). -/
def lineStuck (l : Line) : Line :=
  { forgetFrame l with
    condition := .stuck, idleCount := 0, dominantRun := 65, listenIn := Timer.off, onLine := none, objecting := false
    assembler := if l.assembler = .receiving then .ready else l.assembler }

/-- Entry to STUCK (R149, R150, R100). -/
def enterStuck (s : State) : State :=
  react (releaseAllDiscarded (trouble (raise .lineStuck { s with line := lineStuck s.line })))

/-- STUCK_ENTRY (R149, R150, R100). -/
def execStuckEntry (s : State) : Result := .next (if s.line.condition = .stuck then s else enterStuck s)

/-- STRAY_BIT (R136, R149): a dominant bit outside a frame below idle count 11; the 65th in a row makes the line STUCK. -/
def execStrayBit (s : State) : Result :=
  .next (
    if betweenFrames s && !assembling s.line && decide (s.line.idleCount < 11) then
      if 64 ≤ s.line.dominantRun then enterStuck s
      else { s with line := readBit false s.line }
    else s)

/-- LINE_RETURN (R151). -/
def execLineReturn (s : State) : Result :=
  .next (
    if s.line.condition = .stuck then
      { s with line := { s.line with
          condition := .idle, idleCount := 11, dominantRun := 0, assembler := .ready
          listenIn := Timer.start listenInterval } }
    else s)

/-- The REJOIN frame of a cause (R184, R151). -/
def rejoinFrame (c : StartCause) : Frame := ⟨.rejoin, [startCauseCode c], none, false⟩

/-- Places a REJOIN unless one waits (R145, R151, R184). -/
def placeRejoin (c : StartCause) (s : State) : State :=
  if countKind .rejoin s.line.list = 0 then placeFrame (rejoinFrame c) s else s

/-- RETURN_LISTEN_IN_END (R151, R73). -/
def execReturnListenInEnd (s : State) : Result :=
  .next (
    if s.line.listenIn.running then react (placeRejoin .lineReturn { s with line.listenIn := Timer.off })
    else s)

end Sys2Proof.Machine
end

