-- ==== Sys2Proof/Machine/StationControl.lean ====
section
/-! DEFINITION. The station controller (Chapter 11): station-level resets, the start sequence, calibration, and RUN entry, with
the meaning of each of their events. -/

namespace Sys2Proof.Machine

/-! ### Station-level resets (R28, R45, R61, R83, R102, R123, R135, R153, R170, R189) -/

/-- Every block but the station controller and the setup store as a station-level reset leaves it. The energy at each port is
the line's own (Table 0-1), as are the other signals there; the model's own fields `now`, `draws`, `wire` and `pending` go on. -/
def resetBlocks (st : Station) (su : Setup) (s : State) : State :=
  { State.reset with
    station := st, setup := su
    ports := (s.mapPorts (fun _ pt => Port.fresh pt.front)).ports
    now := s.now, draws := s.draws, wire := s.wire, pending := s.pending }

/-- Table 11-4, hard reset and RESET STATION columns: calibration is kept, but absent if the reset is taken in CALIBRATING. -/
def resetStation (number : StationNo) (geometry : Geometry) (cause : StartCause) (st : Station) : Station :=
  { st with
    number := number, geometry := geometry, phase := .listen, listen := Timer.start listenInterval, cause := cause
    announced := false
    calibration := if st.phase = .calibrating then none else st.calibration
    calFaults := if st.phase = .calibrating then PortSet.none else st.calFaults
    calibrating := Timer.off, window := Timer.off }

/-- POWER_ON_RESET (R183, R184, R189). -/
def execPowerOnReset (straps : Straps) (s : State) : Result :=
  .next (resetBlocks (Station.powerOn straps) Setup.default s)

/-- HARD_RESET (R183, R184, R189): the population strap is not latched. -/
def execHardReset (straps : Straps) (s : State) : Result :=
  .next (resetBlocks (resetStation straps.station straps.geometry .hardReset s.station) s.setup s)

/-- The reset that RESET STATION starts (R172, R184, R189). -/
def stationReset (s : State) : State :=
  resetBlocks (resetStation s.station.number s.station.geometry .stationReset s.station) s.setup s

/-! ### RUN entry (R5, R83, R188) -/

/-- A port as it leaves OFFLINE at RUN entry (R5). -/
def portAtRun (s : State) (p : PortId) (pt : Port) : Port :=
  if s.unserved p || pt.train.consoleDisabled then enterDisabled pt else portReEntry s.setup.wakeSettle pt

/-- The station enters RUN: ports leave OFFLINE, and the budget window runs from 0 (R5, R80, R188). -/
def enterRun (s : State) : State :=
  let s' := s.mapPorts (portAtRun s)
  react { s' with
    station := { s'.station with phase := .run, listen := Timer.off, calibrating := Timer.off, window := Timer.off }
    budget := { s'.budget with window := Timer.start (4000 * s.setup.budgetWindow) } }

/-! ### Calibration and SETUP (R185, R186, R188) -/

/-- 768 shot periods of 16 µs for one port, in µs (R185). -/
def portCalibration : Nat := 12288

/-- The calibration time of a station's populated ports (R185). -/
def calibrationTime (pop : Population) : Nat := portCalibration * populationCount pop

/-- Port p is under calibration: the populated ports are done one at a time in ascending order (R185). -/
def underCalibration (st : Station) (p : PortId) : Bool :=
  st.phase == .calibrating && populated st.population p && decide (st.calibrating.elapsed / portCalibration = p.val)

/-- The port under calibration is on internal termination, every other one on the line interface (R185 steps 1 and 5). -/
def switchTermination (s : State) : State :=
  s.mapPorts (fun p pt => { pt with front.terminated := underCalibration s.station p })

/-- Every port is on the line interface (R185 step 5). -/
def toLineInterface (s : State) : State := s.mapPorts (fun _ pt => { pt with front.terminated := false })

/-- The pulse that calibration launches in the µs that ends now: 4 µs into each shot period, 64 shots of each reach on each
pair in letter order (R185 step 2, R91, R92). -/
def calibrationPulse (elapsed : Nat) : Option LinkSignal :=
  if elapsed % 16 = 4 then
    let shot := elapsed % portCalibration / 16
    let reach : Reach := if shot % 192 < 64 then .short else if shot % 192 < 128 then .medium else .long
    some (.pulse (Pair.all.getD (shot / 192) .A) (pulseWidth reach))
  else none

/-- What calibration does at a port in one µs: its termination, and its pulse when it is under calibration (R185). -/
def calibrateTick (st : Station) (p : PortId) (f : FrontEnd) : FrontEnd :=
  if st.phase = .calibrating then
    { f with terminated := underCalibration st p
             launched := match underCalibration st p, calibrationPulse st.calibrating.elapsed with
               | true, some pulse => [pulse]
               | _, _ => f.launched }
  else f

/-- The setup window, in µs (R188). -/
def setupWindow : Nat := 2000000

/-- Entry to CALIBRATING: data absent, marks empty, the setup window suspended, the first port on internal termination
(R185, R186). -/
def enterCalibrating (s : State) : State :=
  switchTermination { s with station := { s.station with
      phase := .calibrating, listen := Timer.off, calibration := none, calFaults := PortSet.none
      calibrating := Timer.start (calibrationTime s.station.population), window := s.station.window.pause } }

/-- Entry to SETUP: the window starts at 0, or goes on where CALIBRATE suspended it (R186, R188). -/
def enterSetup (s : State) : State :=
  { s with station := { s.station with
      phase := .setup, listen := Timer.off, calibrating := Timer.off
      window := if s.station.window.limit = 0 then Timer.start setupWindow else s.station.window.resume } }

/-- LISTEN_TIMER_EXPIRY (R184, R185, R188, R5): the setup window begins anew, now or after calibration. -/
def execListenTimerExpiry (s : State) : Result :=
  .next (
    if s.station.phase = .listen then
      let s' := placeRejoin s.station.cause { s with station.window := Timer.off }
      if s.station.calibration.isNone then enterCalibrating s'
      else if s.station.locked then enterRun s'
      else enterSetup s'
    else s)

/-- The input of a port that the list does not reach: nothing but zeros (assumption log 15). -/
def noCapture : CalibrationInput := PerPair.const ⟨[], [], []⟩

/-- The calibration data of local port p (R185). -/
def calibrated (pop : Population) (input : List CalibrationInput) (p : PortId) : Option PortCal :=
  if populated pop p then some (calibratePort (input.getD p.val noCapture)) else none

/-- One value for each local port. -/
def ofPorts {α : Type} (f : PortId → α) : Vector α 12 :=
  ⟨#[f 0, f 1, f 2, f 3, f 4, f 5, f 6, f 7, f 8, f 9, f 10, f 11], rfl⟩

/-- The calibration data becomes present, with its marks (R185). -/
def storeCalibration (input : List CalibrationInput) (s : State) : State :=
  let data := ofPorts (calibrated s.station.population input)
  { s with station := { s.station with
      calibration := some data
      calFaults := PortSet.ofTest (fun p => (data[p.val]).any calFaulty) } }

/-- CAL_FAULT is raised when a port has been marked (R185). -/
def raiseCalFault (s : State) : State := if s.station.calFaults = PortSet.none then s else raise .calFault s

/-- CALIBRATION_DONE (R185, R186). -/
def execCalibrationDone (input : List CalibrationInput) (s : State) : Result :=
  .next (
    if s.station.phase = .calibrating then
      let s' := raiseCalFault (storeCalibration input (toLineInterface s))
      if s.station.locked then enterRun s' else enterSetup s'
    else s)

/-- SETUP_WINDOW_EXPIRY (R188). -/
def execSetupWindowExpiry (s : State) : Result :=
  .next (
    if s.station.phase = .setup then enterRun (raise .selfLocked { s with station.locked := true })
    else s)

end Sys2Proof.Machine
end

