-- ==== Sys2Proof/Machine/Console.lean ====
section
/-! DEFINITION. The console requests that act on measurements, training and resets (Chapters 1, 4 and 10): MEASURE, SWEEP,
CANCEL, TRAIN and RESET, each handler with the meaning of its row. -/

namespace Sys2Proof.Machine

/-! ### MEASURE (R63 to R65, R174) -/

/-- An empty pair set becomes A, B, C, D (R174). -/
def measuredPairs (pairs : Byte) : PairSet :=
  if (pairSetOf pairs).isEmpty then PairSet.full else pairSetOf pairs

/-- The request of a MEASURE with its operands adjusted (R63, R174). -/
def consoleRequest (pairs averaging intrusive : Byte) (reach : Reach) : MeasureRequest :=
  ⟨measuredPairs pairs, reach, averagingOf averaging.toNat, intrusive != 0, .console, none⟩

/-- R64: a console MEASURE of port p. -/
def measurePort (r : MeasureRequest) (adjusted : Bool) (p : PortId) (s : State) : Served :=
  if heldFor p s then refuse .busy s
  else if (s.port p).isIn .disabled then refuse .portDisabled s
  else
    match waitingFor p s with
    | some e => accept adjusted (react (mergeInto p r e s))
    | none =>
        if queueCapacity ≤ s.queue.length then refuse .queueFull s
        else accept adjusted (react (addEntry p r s))

/-- The scheduler takes a MEASURE. -/
def serveMeasure (port pairs reach averaging intrusive : Byte) (s : State) : Served :=
  match reachOf reach with
  | none => refuse .badKind s
  | some r =>
      withPort port (measurePort (consoleRequest pairs averaging intrusive r) (averagingAdjusted averaging.toNat)) s

/-- MEASURE (R64, R65, R146, R171, R173 to R175). -/
def execMeasure (via : Via) (port pairs reach averaging intrusive : Byte) (s : State) : Result :=
  .next (takeRequest via.broadcast ([1, port, pairs, reach, averaging, intrusive] ++ via.extra)
    (serveMeasure port pairs reach averaging intrusive) s)

/-! ### SWEEP (R70, R71, R174) -/

/-- The new sweep record: a tag one greater, cursor absent, RUNNING (R70). -/
def startSweep (f : SweepFields) (s : State) : State :=
  sweepAdvance { s with sweep := ⟨.running, s.sweep.tag + 1, some f, none, Timer.off⟩ }

/-- R70: an accepted SWEEP replaces the record and advances at once. -/
def serveSweep (portsHi portsLo reach averaging period : Byte) (s : State) : Served :=
  match reachOf reach with
  | none => refuse .badKind s
  | some r =>
      let ports := portSetOf portsHi portsLo
      if ports = PortSet.none then refuse .badTarget s
      else accept (averagingAdjusted averaging.toNat)
        (react (startSweep ⟨ports, r, averagingOf averaging.toNat, period.toNat⟩ (retireSweep s)))

/-- SWEEP (R70, R71, R146, R171, R173 to R175). -/
def execSweep (via : Via) (portsHi portsLo reach averaging period : Byte) (s : State) : Result :=
  .next (takeRequest via.broadcast ([2, portsHi, portsLo, reach, averaging, period] ++ via.extra)
    (serveSweep portsHi portsLo reach averaging period) s)

/-! ### CANCEL (R77, R78) -/

/-- The measurement matter of port p ends with a stop's outcome: a waiting entry with that final outcome, a held one by a
stop of its channel (R77, R79). -/
def endMatter (p : PortId) (o : FinalOutcome) (stop : StopOutcome) (s : State) : State :=
  match waitingFor p s, channelOf p s with
  | some _, _ => finalOutcome p o s
  | none, some ch => stopChannel ch stop s
  | none, none => s

/-- The drop settle of port p is ended by a CANCEL: no request, SETTLE removed (R59, R77). -/
def cancelSettle (p : PortId) (s : State) : State :=
  if (s.port p).watch.dropSettle.running then unhold p dropSettleHold (stopDropSettle p s) else s

/-- R77: a CANCEL acts on whatever of the port's matter stands. -/
def cancelPort (p : PortId) (s : State) : State := cancelSettle p (endMatter p .cancelled .cancelled s)

/-- An entry for port p stood in the queue. -/
def hadEntry (p : PortId) (s : State) : Bool := s.queue.any (fun e => decide (e.target = p))

/-- R78: R77 on every port, on the matter that stood when the request was taken (assumption log 8). -/
def cancelEach (taken : State) : List PortId → State → State
  | [], s => s
  | p :: ps, s => cancelEach taken ps (if hadEntry p taken then cancelPort p s else cancelSettle p s)

def cancelAllPorts (s : State) : State := cancelEach s allPorts s

/-- CANCEL of one port. -/
def serveCancel (port : Byte) (s : State) : Served :=
  withPort port (fun p s => accept false (react (cancelPort p s))) s

/-- CANCEL with the all flag. -/
def serveCancelAll (s : State) : Served := accept false (react (cancelAllPorts s))

/-- CANCEL with the sweep flag: the record ends first (R78, R72). -/
def serveCancelSweep (all : Bool) (port : Byte) (s : State) : Served :=
  if all then serveCancelAll (endSweep s) else serveCancel port (endSweep s)

/-- The flag byte of a CANCEL: all and sweep at their own positions (Table 10-2, R174). -/
def cancelFlags (other : BitVec 6) (sweep all : Bool) : Byte :=
  (other ++ BitVec.ofBool sweep) ++ BitVec.ofBool all

/-- CANCEL (R77, R146, R171, R173, R176). -/
def execCancel (via : Via) (port : Byte) (other : BitVec 6) (s : State) : Result :=
  .next (takeRequest via.broadcast ([3, port, cancelFlags other false false] ++ via.extra) (serveCancel port) s)

/-- CANCEL_ALL (R78, R146, R171, R173, R176). -/
def execCancelAll (via : Via) (port : Byte) (other : BitVec 6) (s : State) : Result :=
  .next (takeRequest via.broadcast ([3, port, cancelFlags other false true] ++ via.extra) serveCancelAll s)

/-- CANCEL_SWEEP (R78, R72, R146, R171, R173, R176). -/
def execCancelSweep (via : Via) (all : Bool) (port : Byte) (other : BitVec 6) (s : State) : Result :=
  .next (takeRequest via.broadcast ([3, port, cancelFlags other true all] ++ via.extra) (serveCancelSweep all port) s)

/-! ### TRAIN: RESTART, RESTART_FULL, FORCE (R23, R24, R27) -/

/-- What every restart does to the failure counts (R23). -/
def clearCounts (t : Training) : Training := { t with consecutive := 0, fourPair := 0, runAlerted := false }

/-- RESTART_FULL also clears downshift and the forced grade (R23). -/
def clearForce (t : Training) : Training := { t with downshift := false, forced := none }

/-- An UP port drops with cause CONSOLE (R17). -/
def dropIfUp (p : PortId) (s : State) : State := if (s.port p).isIn .up then dropLink p .console s else s

/-- The port's fields change. -/
def changeTrain (p : PortId) (f : Training → Training) (s : State) : State :=
  s.modPort p (fun pt => { pt with train := f pt.train })

/-- The port goes to SETTLING with a fresh settle timer (R23, R25). -/
def toSettling (p : PortId) (s : State) : State := s.modPort p (enterSettling s.setup.wakeSettle)

/-- The port would enter DISABLED at RUN entry (R5, R27). -/
def wouldDisable (p : PortId) (s : State) : Bool := s.unserved p || (s.port p).train.consoleDisabled

/-- A restart that changes fields by f, in RUN by the state of the port, in other phases by what RUN entry would do (R23, R27). -/
def restartWith (f : Training → Training) (p : PortId) (s : State) : Served :=
  if s.station.phase = .run then
    match (s.port p).train.state with
    | .disabled => refuse .portDisabled s
    | .held => refuse .busy s
    | _ => accept false (toSettling p (changeTrain p (fun t => f (clearCounts t)) (dropIfUp p s)))
  else if wouldDisable p s then refuse .portDisabled s
  else accept false (changeTrain p (fun t => f (clearCounts t)) s)

/-- FORCE: the grade must lie in the offer mask (R24); outside RUN a port that would be DISABLED is refused first
(assumption log 10). -/
def forcePort (g : Grade) (p : PortId) (s : State) : Served :=
  if s.station.phase ≠ .run ∧ wouldDisable p s = true then refuse .portDisabled s
  else if fourPairGrade g || !((s.port p).train.offerMask.has g) then refuse .badGrade s
  else restartWith (fun t => { t with forced := some g }) p s

def serveForce (port grade : Byte) (s : State) : Served :=
  match gradeOf grade with
  | none => refuse .badGrade s
  | some g => withPort port (forcePort g) s

/-- RESTART (R23, R27, R146, R171, R173). -/
def execRestart (via : Via) (port : Byte) (s : State) : Result :=
  .next (takeRequest via.broadcast ([4, port, 0] ++ via.extra) (withPort port (restartWith id)) s)

/-- RESTART_FULL (R23, R27, R146, R171, R173). -/
def execRestartFull (via : Via) (port : Byte) (s : State) : Result :=
  .next (takeRequest via.broadcast ([4, port, 1] ++ via.extra) (withPort port (restartWith clearForce)) s)

/-- FORCE (R24, R27, R146, R171, R173). -/
def execForce (via : Via) (port grade : Byte) (s : State) : Result :=
  .next (takeRequest via.broadcast ([4, port, 2, grade] ++ via.extra) (serveForce port grade) s)

/-! ### TRAIN: OFFER, ENABLE, DISABLE (R25 to R27) -/

/-- OFFER's new fields (R25). -/
def offerFields (grades : GradeSet) (pref : RolePref) (t : Training) : Training :=
  { t with offerMask := grades, rolePref := pref, forced := none, downshift := false }

/-- The states in which OFFER changes fields alone (R25, R27). -/
def offerKeepsState : TrainState → Bool
  | .offline => true
  | .disabled => true
  | .dormant => true
  | .held => true
  | .settling => false
  | .offering => false
  | .resolving => false
  | .qualifying => false
  | .up => false
  | .backoff => false

/-- R25: an OFFER of port p. -/
def offerPort (grades : GradeSet) (pref : RolePref) (p : PortId) (s : State) : Served :=
  if grades.isEmpty then refuse .badGrade s
  else if offerKeepsState (s.port p).train.state then accept false (changeTrain p (offerFields grades pref) s)
  else accept false (toSettling p (changeTrain p (offerFields grades pref) (dropIfUp p s)))

def serveOffer (port grades pref : Byte) (s : State) : Served :=
  match rolePrefOf pref with
  | none => refuse .badKind s
  | some r => withPort port (offerPort (gradeSetOf grades) r) s

/-- OFFER (R25, R27, R146, R171, R173). -/
def execOffer (via : Via) (port grades pref : Byte) (s : State) : Result :=
  .next (takeRequest via.broadcast ([4, port, 3, grades, pref] ++ via.extra) (serveOffer port grades pref) s)

/-- R26: an ENABLE of port p. -/
def enablePort (p : PortId) (s : State) : Served :=
  if s.unserved p then refuse .portDisabled s
  else
    let s' := changeTrain p (fun t => { t with consoleDisabled := false }) s
    if (s.port p).isIn .disabled then accept false (reEnter p s') else accept false s'

/-- ENABLE (R26, R27, R146, R171, R173). -/
def execEnable (via : Via) (port : Byte) (s : State) : Result :=
  .next (takeRequest via.broadcast ([4, port, 4] ++ via.extra) (withPort port enablePort) s)

/-- The port leaves its state for DISABLED, its drop settle stopped (R26, R59). -/
def disableNow (p : PortId) (s : State) : State := (stopDropSettle p (dropIfUp p s)).modPort p enterDisabled

/-- R26: a DISABLE of port p; in RUN it ends the port's measurement with PORT_DISABLED (R79). -/
def disablePort (p : PortId) (s : State) : Served :=
  let s' := changeTrain p (fun t => { t with consoleDisabled := true }) s
  if (s.port p).isIn .disabled || (s.port p).isIn .offline then accept false s'
  else accept false (react (endMatter p .portDisabled .portDisabled (disableNow p s')))

/-- DISABLE (R26, R27, R79, R146, R171, R173). -/
def execDisable (via : Via) (port : Byte) (s : State) : Result :=
  .next (takeRequest via.broadcast ([4, port, 5] ++ via.extra) (withPort port disablePort) s)

/-! ### RESET (R28, R79, R134, R172) -/

/-- The port context after RESET PORT, before its state is settled (Tables 1-5, 2-6, 3-3, 7-5). -/
def portReset (pt : Port) : Port :=
  { pt with
    train := { Training.fresh with
      state := pt.train.state, consoleDisabled := pt.train.consoleDisabled, shadowed := pt.train.shadowed
      lastDrop := if pt.isIn .up then some .console else none }
    timers := TrainTimers.fresh, res := Resolution.fresh, watch := Watch.fresh, store := PortStore.fresh }

/-- The state RESET PORT leaves: DISABLED and OFFLINE stay, any other takes re-entry (R28, R175). -/
def resetReEntry (code : Nat) (pt : Port) : Port :=
  if pt.isIn .disabled || pt.isIn .offline then pt else portReEntry code pt

/-- LINK_DOWN for a port that was UP; the drop is not counted (R17). -/
def resetLinkDown (p : PortId) (s : State) : State := if (s.port p).isIn .up then raise (.linkDown p) s else s

/-- The measurement matter of a port that is reset: a waiting entry goes without an outcome, a held one is stopped with
CANCELLED (R79). -/
def resetMatter (p : PortId) (s : State) : State :=
  match waitingFor p s, channelOf p s with
  | some _, _ => dropWaiting p s
  | none, some ch => stopChannel ch .cancelled s
  | none, none => s

/-- R28: RESET PORT of port p. -/
def resetPort (p : PortId) (s : State) : State :=
  react (resetMatter p ((resetLinkDown p s).modPort p (fun pt => resetReEntry s.setup.wakeSettle (portReset pt))))

/-- RESET_PORT (R28, R134, R79, R146, R171, R173). -/
def execResetPort (via : Via) (port : Byte) (s : State) : Result :=
  .next (takeRequest via.broadcast ([9, 0, port] ++ via.extra) (withPort port (fun p s => accept false (resetPort p s))) s)

/-- RESET with scope STATION is not answered (R172). -/
def serveResetStation (s : State) : Served := (none, stationReset s)

/-- RESET_STATION (R172, R184, R189, R146, R173). -/
def execResetStation (via : Via) (port : Byte) (s : State) : Result :=
  .next (takeRequest via.broadcast ([9, 1, port] ++ via.extra) serveResetStation s)

end Sys2Proof.Machine
end

