-- ==== Sys2Proof/Machine/SetupItems.lean ====
section
/-! DEFINITION. SETUP, LOCK and CALIBRATE (Chapter 11): the setup items of Table 11-3 with their clamping and rounding, and the
meaning of the rows. -/

namespace Sys2Proof.Machine

/-! ### Items (R187, Table 11-3) -/

/-- A stored value and whether it was clamped or rounded. -/
abbrev Stored := Setup × Bool

/-- Stores a value clamped to its range. -/
def clampItem (lo hi n : Nat) (store : Nat → Setup) : Stored := (store (clamp lo hi n), clamp lo hi n != n)

/-- Item 0: a delay class entry; an index above 7 is clamped to 7. -/
def storeDelay (cls n : Nat) (su : Setup) : Stored :=
  let i := clamp 0 7 cls
  let d := clamp 3500 7000 n
  ({ su with delay := su.delay.setIfInBounds i d }, i != cls || d != n)

/-- A segment entry word: boundary in the upper 12 bits, class in the next 3, junction-expected in the lowest. -/
def segmentOf (word : Nat) : Segment := ⟨word / 16 % 4096, word / 2 % 8, word % 2 == 1⟩

/-- A boundary smaller than the one before it is raised to equal it (R187). -/
def raiseBoundary (before : Segment) (e : Segment) : Segment := { e with boundary := max before.boundary e.boundary }

/-- The walk of a port's table from entry 1 to entry 3 (R187). -/
def raiseTable (t : Vector Segment 4) : Vector Segment 4 :=
  let e1 := raiseBoundary t[0] t[1]
  let e2 := raiseBoundary e1 t[2]
  let e3 := raiseBoundary e2 t[3]
  ⟨#[t[0], e1, e2, e3], rfl⟩

/-- Writes entry i of a port's table and raises what stands below it; the flag says that a boundary was raised (R187). -/
def storeSegment (p : PortId) (i : Fin 4) (word : Nat) (su : Setup) : Stored :=
  let written := (su.segments[p.val]).set i.val (segmentOf word) i.isLt
  ({ su with segments := su.segments.set p.val (raiseTable written) p.isLt }, raiseTable written != written)

/-- Item 13: clamped to 8..128 µs, then rounded down to a multiple of 8 (R48, R187). -/
def storeWindow (n : Nat) (su : Setup) : Stored :=
  let w := clamp 8 128 n / 8 * 8
  ({ su with window := w }, w != n)

/-- Items 5 and 6: per-port sets. -/
def storeCriteria (p : PortId) (b : Byte) (su : Setup) : Setup :=
  { su with criteria := su.criteria.set p.val (criteriaOf b) p.isLt }

def storeDiagnose (p : PortId) (b : Byte) (su : Setup) : Setup :=
  { su with diagnose := su.diagnose.set p.val (b != 0) p.isLt }

/-- A setup item written into the store: n is its number, ops its operands (Table 11-3). The answer's flag tells a clamped,
rounded or raised value. None: an operand that the checks of R173 refuse. -/
def storeItem (n : Nat) (ops : List Byte) (su : Setup) : Option Stored :=
  let a := byteAt ops 0
  let one := a.toNat
  let two := twoByteOf a (byteAt ops 1)
  let port := portOf a
  match n with
  | 0 => some (storeDelay one (twoByteOf (byteAt ops 1) (byteAt ops 2)) su)
  | 1 => port.map (fun p => storeSegment p 0 (twoByteOf (byteAt ops 1) (byteAt ops 2)) su)
  | 2 => port.map (fun p => storeSegment p 1 (twoByteOf (byteAt ops 1) (byteAt ops 2)) su)
  | 3 => port.map (fun p => storeSegment p 2 (twoByteOf (byteAt ops 1) (byteAt ops 2)) su)
  | 4 => port.map (fun p => storeSegment p 3 (twoByteOf (byteAt ops 1) (byteAt ops 2)) su)
  | 5 => port.map (fun p => (storeCriteria p (byteAt ops 1) su, false))
  | 6 => port.map (fun p => (storeDiagnose p (byteAt ops 1) su, false))
  | 7 => some (clampItem 0 63 one (fun v => { su with alpha := v }))
  | 8 => some (clampItem 8 1023 two (fun v => { su with detect := v }))
  | 9 => some (clampItem 8 1023 two (fun v => { su with busy := v }))
  | 10 => some (clampItem 1 47 one (fun v => { su with mismatch := v }))
  | 11 => some (clampItem 1 47 one (fun v => { su with junctionLimit := v }))
  | 12 => some (clampItem 1 63 one (fun v => { su with cross := v }))
  | 13 => some (storeWindow one su)
  | 14 => some (clampItem 1 255 one (fun v => { su with thresholdE := v }))
  | 15 => some (clampItem 1 255 one (fun v => { su with thresholdI := v }))
  | 16 => some (clampItem 1 255 one (fun v => { su with thresholdM := v }))
  | 17 => some (clampItem 0 4 one (fun v => { su with dropSettle := v }))
  | 18 => some (clampItem 0 4 one (fun v => { su with wakeSettle := v }))
  | 19 => (reachOf a).map (fun r => ({ su with autoReach := r }, false))
  | 20 => some ({ su with autoAveraging := averagingOf one }, averagingAdjusted one)
  | 21 => some ({ su with downshiftEnable := a != 0 }, false)
  | 22 => some (clampItem 1 7 one (fun v => { su with downshiftAttempts := v }))
  | 23 => some (clampItem 8 255 one (fun v => { su with skewLimit := v }))
  | 24 => some (clampItem 1 255 one (fun v => { su with budgetWindow := v }))
  | 25 => some (clampItem 64 65535 two (fun v => { su with shotThreshold := v }))
  | 26 => some (clampItem 1 15 one (fun v => { su with paceTime := v }))
  | 27 => some (clampItem 1 255 one (fun v => { su with paceInterval := v }))
  | _ => none

/-- A SETUP request taken in SETUP writes its item (R187). -/
def serveSetup (item : Byte) (ops : List Byte) (s : State) : Served :=
  match storeItem item.toNat ops s.setup with
  | some (su, adjusted) => accept adjusted { s with setup := su }
  | none => refuse .badKind s

/-- SETUP (R187, R188, R146, R171, R173 to R175). -/
def execSetup (via : Via) (item : Byte) (operands : List Byte) (s : State) : Result :=
  .next (takeRequest via.broadcast ([6, item] ++ operands ++ via.extra) (serveSetup item (operands ++ via.extra)) s)

/-- A segment entry is written (R187). -/
def serveSegment (index : Fin 4) (port hi lo : Byte) (s : State) : Served :=
  withPort port (fun p s =>
    let r := storeSegment p index (twoByteOf hi lo) s.setup
    accept r.2 { s with setup := r.1 }) s

/-- SETUP_SEGMENT_ENTRY (R187, R188, R146, R171, R173 to R175). -/
def execSetupSegmentEntry (via : Via) (index : Fin 4) (port hi lo : Byte) (s : State) : Result :=
  .next (takeRequest via.broadcast ([6, byteOf (1 + index.val), port, hi, lo] ++ via.extra)
    (serveSegment index port hi lo) s)

/-! ### LOCK and CALIBRATE (R186, R188) -/

/-- LOCK: in SETUP it locks and enters RUN; a locked station answers without change (R175, R188). -/
def serveLock (s : State) : Served :=
  if s.station.phase = .setup then accept false (enterRun { s with station.locked := true }) else accept false s

/-- LOCK (R188, R5, R146, R171, R173, R175, R176). -/
def execLock (via : Via) (s : State) : Result :=
  .next (takeRequest via.broadcast ([7] ++ via.extra) serveLock s)

/-- CALIBRATE (R186). -/
def serveCalibrate (s : State) : Served := accept false (enterCalibrating s)

/-- CALIBRATE (R186, R146, R171, R173, R175). -/
def execCalibrate (via : Via) (s : State) : Result :=
  .next (takeRequest via.broadcast ([8] ++ via.extra) serveCalibrate s)

end Sys2Proof.Machine
end

