-- ==== Sys2Proof/Machine/Queries.lean ====
section
/-! DEFINITION. The queries (section 10.4): the pages of Tables 10-5 to 10-7 and the meaning of each query row. Every query but
SUMMARY changes no state of its own (R177). -/

namespace Sys2Proof.Machine

/-- The port byte of a page. -/
def portByte (p : PortId) : Byte := byteOf p.val

/-! ### Port pages (Table 10-5, R178) -/

def holdsByte (h : HoldReasons) : Byte := setByte [h.channel, h.settle, h.await]

/-- The disabling causes: console-disabled, unpopulated, CAL_FAULT. -/
def disabledByte (p : PortId) (s : State) : Byte :=
  setByte [(s.port p).train.consoleDisabled, !(populated s.station.population p), s.station.calFaults.has p]

def trainFlagsByte (t : Training) : Byte := setByte [t.downshift, t.downshiftCheck, t.runAlerted, t.shadowed]

def portPage0 (p : PortId) (s : State) : List Byte :=
  let t := (s.port p).train
  [portByte p, trainStateCode t.state, holdsByte t.holds, disabledByte p s, trainFlagsByte t, gradeSetByte t.offerMask,
    rolePrefCode t.rolePref, optByte gradeCode t.forced, optByte gradeCode t.grade, optByte roleCode t.role]

def portPage1 (p : PortId) (s : State) : List Byte :=
  let t := (s.port p).train
  let r := (s.port p).res
  [portByte p, optByte yesNoByte r.abCrossed, optByte yesNoByte r.cdCrossed, pairSetByte (r.polarity.map Option.isSome),
    pairSetByte (r.polarity.map (fun o => o == some true)), pairSetByte (r.missing.getD PairSet.none),
    healthCode t.health.a, healthCode t.health.b, healthCode t.health.c, healthCode t.health.d,
    optByte failureCode t.lastFailure, optByte dropCode t.lastDrop]

/-- Four optional two-byte values in letter order. -/
def pairWords (v : PerPair (Option Nat)) : List Byte := v.toList.flatMap (optWord wordBytes)

def portPage2 (p : PortId) (s : State) : List Byte := portByte p :: pairWords (s.port p).res.qp
def portPage3 (p : PortId) (s : State) : List Byte := portByte p :: pairWords (s.port p).res.skew

def portPage4 (p : PortId) (s : State) : List Byte :=
  let c := s.criteria p
  [portByte p, watchCode (s.port p).watch.condition, criterionCode (symbolStatus c), criterionCode (idleStatus c),
    criterionCode (marginStatus c), criterionCode (energyStatus c), criterionCode (lockStatus c)]

def portPage (page : Byte) (p : PortId) (s : State) : List Byte :=
  if page = 0 then portPage0 p s
  else if page = 1 then portPage1 p s
  else if page = 2 then portPage2 p s
  else if page = 3 then portPage3 p s
  else portPage4 p s

def countersPage (page : Byte) (p : PortId) (s : State) : List Byte :=
  let d := (s.port p).store.drops
  let t := (s.port p).train
  if page = 0 then
    portByte p :: [d.symbolErrors, d.idleErrors, d.marginDips, d.energyLoss, d.lockLoss].flatMap count16Bytes
  else
    portByte p :: [d.silence, d.heldForMeasurement, d.console].flatMap count16Bytes ++ [byteOf t.consecutive, byteOf t.fourPair]

/-- The passive length of one pair (R44): (Qp − 96 − Q0) × 250 ps, or 0, walked over the port's segments. -/
def pairLength (p : PortId) (s : State) (x : Pair) (qp : Nat) : Nat × Bool :=
  walkDistance s.setup.delay (s.segments p) ((qp - turnaround - (calibrationOf p s).q0.get x) * 250)

/-- The passive length is available: UP at a four-pair grade with all Qp present (R44). -/
def lengthsOf (p : PortId) (s : State) : Option (PerPair (Nat × Bool)) :=
  let pt := s.port p
  if pt.isIn .up && pt.atFourPair then
    match allQp pt.res with
    | some qp => some (PerPair.ofFn (fun x => pairLength p s x (qp.get x)))
    | none => none
  else none

/-- LENGTH page (Table 10-5, R44, R178). A page that is not available carries the empty set as its clamped byte; the rules
give only its available byte and absent distances (assumption log 33). -/
def lengthPage (p : PortId) (s : State) : List Byte :=
  match lengthsOf p s with
  | some l => [portByte p, 1] ++ l.toList.flatMap (fun d => wordBytes d.1) ++ [pairSetByte (l.map Prod.snd)]
  | none => [portByte p, 0] ++ absentWord ++ absentWord ++ absentWord ++ absentWord ++ [pairSetByte PairSet.none]

/-! ### Record pages (Table 10-6, R179) -/

def diagHeadPage (p : PortId) (s : State) : List Byte :=
  let st := (s.port p).store
  match st.record with
  | some r =>
      [portByte p] ++ count16Bytes r.sequence ++
        [originCode r.origin, recordOutcomeCode r.outcome, reachCode r.reach, byteOf (averagingCount r.averaging),
          optByte attemptCode st.attempt] ++ r.pairs.toList.map (fun x => verdictCode x.verdict)
  | none =>
      [portByte p, 0, 0, absentByte, absentByte, absentByte, absentByte, optByte attemptCode st.attempt,
        absentByte, absentByte, absentByte, absentByte]

def echoPairPage (r : PairResult) : List Byte :=
  [verdictCode r.verdict] ++ optWord wordBytes r.distance ++
    (match r.launch with
      | some l => signedWordBytes l
      | none => absentSignedWord) ++
    [yesNoByte r.truncated, byteOf r.echoes.length]

def absentPairPage : List Byte :=
  [absentByte] ++ absentWord ++ absentSignedWord ++ [absentByte, absentByte]

/-- The class byte: class in the three lowest bits, then polarity and clamped (R179). -/
def echoClassByte (e : Echo) : Byte :=
  echoClassCode e.cls + (if e.positive then 0 else 8) + (if e.clamped then 16 else 0)

/-- The junction index or the cross partner (R179). -/
def echoDetail (e : Echo) : Byte :=
  match e.cls with
  | .junction => optByte byteOf e.junction
  | .crossShort => optByte pairCode e.partner
  | .openEnd => absentByte
  | .short => absentByte
  | .highZ => absentByte
  | .lowZ => absentByte

def echoEntryPage (e : Echo) : List Byte :=
  wordBytes e.distance ++ signedWordBytes e.amplitude ++ [signedByte e.ratio, echoClassByte e, echoDetail e]

def absentEntryPage : List Byte := absentWord ++ absentSignedWord ++ [absentSignedByte, absentByte, absentByte]

/-- The fields of an ECHO page after the sequence number, for a record's pair. -/
def echoFields (r : PairResult) (index : Byte) : List Byte :=
  if index = 5 then echoPairPage r
  else
    match r.echoes[index.toNat]? with
    | some e => echoEntryPage e
    | none => absentEntryPage

def echoPage (p : PortId) (x : Pair) (index : Byte) (s : State) : List Byte :=
  match (s.port p).store.record with
  | some r => [portByte p, pairCode x] ++ count16Bytes r.sequence ++ echoFields (r.pairs.get x) index
  | none => [portByte p, pairCode x, 0, 0] ++ (if index = 5 then absentPairPage else absentEntryPage)

/-! ### Station pages (Table 10-7, R180, R181, R133) -/

def channelBytes (c : Channel) : List Byte :=
  [phaseCode c.phase, optByte (fun l => claimStateCode l.state) c.claim]

/-- STATION 0; the transmit list count includes the REPORT that will carry the page (R180). -/
def stationPage0 (s : State) : List Byte :=
  [stationPhaseCode s.station.phase, flagByte s.station.locked, lineConditionCode s.line.condition,
    flagByte s.line.duplicate, flagByte s.budget.paced, byteOf s.queue.length, byteOf (s.line.list.length + 1)] ++
    channelBytes (s.chan 0) ++ channelBytes (s.chan 1) ++ [byteOf s.view.length]

def stationPage1 (s : State) : List Byte :=
  let c := s.counters
  [c.voided, c.transmitFaults, c.checkFailures, c.arbitrationLosses, c.overruns, c.lockedRefusals].flatMap count16Bytes

def stationPage2 (s : State) : List Byte :=
  count16Bytes s.unknownReleases ++ [sweepStatusCode s.sweep.status, s.sweep.tag] ++
    (match s.sweep.fields with
      | some f =>
          portSetBytes f.ports ++ [reachCode f.reach, byteOf (averagingCount f.averaging), byteOf f.period,
            optByte portByte s.sweep.cursor]
      | none => absentWord ++ [absentByte, absentByte, absentByte, absentByte])

def stationPage (page : Byte) (s : State) : List Byte :=
  if page = 0 then stationPage0 s else if page = 1 then stationPage1 s else stationPage2 s

def claimEntryFields (now : Nat) (v : ViewEntry) : List Byte :=
  [byteOf v.station.val, v.number, if v.active then 1 else 0, byteOf v.target.val, priorityCode v.priority,
    byteOf v.duration] ++ wordBytes ((v.expiry - now) / 64)

def claimEntryPage (index : Byte) (s : State) : List Byte :=
  match s.view[index.toNat]? with
  | some v => index :: claimEntryFields s.now v
  | none => [index] ++ [absentByte, absentByte, absentByte, absentByte, absentByte, absentByte] ++ absentWord

def summaryPage (m : Summary) : List Byte :=
  portSetBytes m.linkUp ++ portSetBytes m.linkDown ++ portSetBytes m.diagDone ++ portSetBytes m.downshift ++
    portSetBytes m.trainFailed ++ [setByte [m.calFault, m.selfLocked, m.duplicate, m.lineStuck, m.overrun]]

/-! ### Handlers and meanings -/

/-- A DATA answer that changes no state (R177). -/
def dataOf (query : Byte) (page : State → List Byte) (s : State) : Served := (some (.data query (page s)), s)

/-- QUERY SUMMARY: the summary is reported and emptied in the same step (R133, R182). -/
def serveSummary (s : State) : Served := (some (.data 0 (summaryPage s.summary)), { s with summary := Summary.empty })

/-- A port's ECHO page. -/
def serveEcho (port pair index : Byte) (s : State) : Served :=
  match pairOf pair with
  | none => refuse .badKind s
  | some x => withPort port (fun p => dataOf 4 (echoPage p x index)) s

/-- QUERY_SUMMARY (R133, R182, R146, R171, R173). -/
def execQuerySummary (via : Via) (s : State) : Result :=
  .next (takeRequest via.broadcast ([5, 0] ++ via.extra) serveSummary s)

/-- QUERY_PORT (R177, R178, R146, R171, R173). -/
def execQueryPort (via : Via) (port page : Byte) (s : State) : Result :=
  .next (takeRequest via.broadcast ([5, 1, port, page] ++ via.extra) (withPort port (fun p => dataOf 1 (portPage page p))) s)

/-- QUERY_COUNTERS (R177, R178, R60, R146, R171, R173). -/
def execQueryCounters (via : Via) (port page : Byte) (s : State) : Result :=
  .next (takeRequest via.broadcast ([5, 2, port, page] ++ via.extra)
    (withPort port (fun p => dataOf 2 (countersPage page p))) s)

/-- QUERY_DIAG_HEAD (R177, R179, R146, R171, R173). -/
def execQueryDiagHead (via : Via) (port : Byte) (s : State) : Result :=
  .next (takeRequest via.broadcast ([5, 3, port] ++ via.extra) (withPort port (fun p => dataOf 3 (diagHeadPage p))) s)

/-- QUERY_ECHO (R177, R179, R146, R171, R173). -/
def execQueryEcho (via : Via) (port pair index : Byte) (s : State) : Result :=
  .next (takeRequest via.broadcast ([5, 4, port, pair, index] ++ via.extra) (serveEcho port pair index) s)

/-- QUERY_LENGTH (R44, R177, R178, R146, R171, R173). -/
def execQueryLength (via : Via) (port : Byte) (s : State) : Result :=
  .next (takeRequest via.broadcast ([5, 5, port] ++ via.extra) (withPort port (fun p => dataOf 5 (lengthPage p))) s)

/-- QUERY_STATION (R177, R180, R146, R171, R173). -/
def execQueryStation (via : Via) (page : Byte) (s : State) : Result :=
  .next (takeRequest via.broadcast ([5, 6, page] ++ via.extra) (dataOf 6 (stationPage page)) s)

/-- QUERY_CLAIM_ENTRY (R177, R181, R146, R171, R173). -/
def execQueryClaimEntry (via : Via) (index : Byte) (s : State) : Result :=
  .next (takeRequest via.broadcast ([5, 7, index] ++ via.extra) (dataOf 7 (claimEntryPage index)) s)

end Sys2Proof.Machine
end

