-- ==== Sys2Proof/Machine/Received.lean ====
section
/-! DEFINITION. Frames as the line gives them: the row of Table 8-4 a good frame takes, a request by its payload alone, and the
meaning of BAD_KIND_REQUEST and DISCARDED_FRAME. -/

namespace Sys2Proof.Machine

/-! ### A request by its payload (Table 10-1) -/

/-- TRAIN by its sub-kind. -/
def serveTrain (payload : List Byte) (s : State) : Served :=
  let port := byteAt payload 1
  let sub := byteAt payload 2
  if sub = 0 then withPort port (restartWith id) s
  else if sub = 1 then withPort port (restartWith clearForce) s
  else if sub = 2 then serveForce port (byteAt payload 3) s
  else if sub = 3 then serveOffer port (byteAt payload 3) (byteAt payload 4) s
  else if sub = 4 then withPort port enablePort s
  else withPort port disablePort s

/-- QUERY by its query kind. -/
def serveQuery (payload : List Byte) (s : State) : Served :=
  let q := byteAt payload 1
  let a := byteAt payload 2
  let b := byteAt payload 3
  if q = 0 then serveSummary s
  else if q = 1 then withPort a (fun p => dataOf 1 (portPage b p)) s
  else if q = 2 then withPort a (fun p => dataOf 2 (countersPage b p)) s
  else if q = 3 then withPort a (fun p => dataOf 3 (diagHeadPage p)) s
  else if q = 4 then serveEcho a b (byteAt payload 4) s
  else if q = 5 then withPort a (fun p => dataOf 5 (lengthPage p)) s
  else if q = 6 then dataOf 6 (stationPage a) s
  else dataOf 7 (claimEntryPage a) s

/-- CANCEL by its flags. -/
def serveCancelFlags (payload : List Byte) (s : State) : Served :=
  let flags := byteAt payload 2
  if flags.getLsbD 1 then serveCancelSweep (flags.getLsbD 0) (byteAt payload 1) s
  else if flags.getLsbD 0 then serveCancelAll s
  else serveCancel (byteAt payload 1) s

/-- A request that has passed its checks, by its payload alone. -/
def serveAny (payload : List Byte) (s : State) : Served :=
  let kind := byteAt payload 0
  let a := byteAt payload 1
  let b := byteAt payload 2
  let c := byteAt payload 3
  let d := byteAt payload 4
  let e := byteAt payload 5
  if kind = 1 then serveMeasure a b c d e s
  else if kind = 2 then serveSweep a b c d e s
  else if kind = 3 then serveCancelFlags payload s
  else if kind = 4 then serveTrain payload s
  else if kind = 5 then serveQuery payload s
  else if kind = 6 then serveSetup a (payload.drop 2) s
  else if kind = 7 then serveLock s
  else if kind = 8 then serveCalibrate s
  else if a = 0 then withPort b (fun p s => accept false (resetPort p s)) s
  else serveResetStation s

/-- BAD_KIND_REQUEST (R173, R146, R171, R176): the first failing check answers; a payload that fails none is a request of
another row and is served as that row's. A payload of no bytes is no request (R144). -/
def execBadKindRequest (broadcast : Bool) (payload : List Byte) (s : State) : Result :=
  .next (
    if payload.isEmpty then (if canTake s then endFrame s else s)
    else takeRequest broadcast payload (serveAny payload) s)

/-! ### Table 8-4 -/

/-- What a station does with a good frame it did not send (Table 8-4). -/
inductive FrameAction where
  | duplicate
  | discard
  | claim (number target priority duration : Byte)
  | release (number target : Byte)
  | rejoin (cause : Byte)
  | request (broadcast : Bool)
  deriving DecidableEq, Repr

/-- The rows of Table 8-4 for kinds REJOIN, RELEASE and CLAIM. -/
def peerAction (f : RxFrame) : FrameAction :=
  if ¬(f.source.toNat < 8) ∨ f.dest ≠ 15 then .discard
  else
    match f.kind.toNat, f.payload with
    | 0, [cause] => .rejoin cause
    | 1, [number, target] => .release number target
    | 2, [number, target, priority, duration] => .claim number target priority duration
    | _, _ => .discard

/-- The rows of Table 8-4 for kind REQUEST. -/
def requestAction (number : StationNo) (f : RxFrame) : FrameAction :=
  if f.source ≠ 15 ∨ f.payload = [] then .discard
  else if f.dest = 15 then .request true
  else if f.dest.toNat = number.val then .request false
  else .discard

/-- The first row of Table 8-4 that applies. -/
def frameAction (number : StationNo) (f : RxFrame) : FrameAction :=
  if f.source.toNat = number.val then .duplicate
  else if 8 ≤ f.source.toNat ∧ f.source.toNat ≤ 14 then .discard
  else if f.kind.toNat < 3 then peerAction f
  else if f.kind = 4 then requestAction number f
  else .discard

/-- A good frame is taken by its row; the end bit has been read. -/
def actOnFrame (f : RxFrame) (s : State) : State :=
  match frameAction s.station.number f, stationOf f.source with
  | .duplicate, _ => raiseDuplicate s
  | .discard, _ => s
  | .claim n t p d, some st => deliverClaim n t p d st s
  | .release n t, some st => deliverRelease n t st s
  | .rejoin c, some st => deliverRejoin c st s
  | .request b, _ => requestLayer b f.payload (serveAny f.payload) s
  | _, none => s

/-! ### Frames and requests as commands -/

/-- A TRAIN request as its row's command (Table 10-1). -/
def trainCommand (via : Nat → Via) (payload : List Byte) : Option Instr :=
  let port := byteAt payload 1
  let sub := byteAt payload 2
  if sub = 0 then some (.restart (via 3) port)
  else if sub = 1 then some (.restartFull (via 3) port)
  else if sub = 2 then some (.force (via 4) port (byteAt payload 3))
  else if sub = 3 then some (.offer (via 5) port (byteAt payload 3) (byteAt payload 4))
  else if sub = 4 then some (.enable (via 3) port)
  else if sub = 5 then some (.disable (via 3) port)
  else none

/-- A QUERY request as its row's command (Table 10-4). -/
def queryCommand (via : Nat → Via) (payload : List Byte) : Option Instr :=
  let q := byteAt payload 1
  let a := byteAt payload 2
  let b := byteAt payload 3
  if q = 0 then some (.querySummary (via 2))
  else if q = 1 then some (.queryPort (via 4) a b)
  else if q = 2 then some (.queryCounters (via 4) a b)
  else if q = 3 then some (.queryDiagHead (via 3) a)
  else if q = 4 then some (.queryEcho (via 5) a b (byteAt payload 4))
  else if q = 5 then some (.queryLength (via 3) a)
  else if q = 6 then some (.queryStation (via 3) a)
  else if q = 7 then some (.queryClaimEntry (via 3) a)
  else none

/-- A CANCEL request as its row's command (Table 10-2). -/
def cancelCommand (via : Via) (payload : List Byte) : Instr :=
  let port := byteAt payload 1
  let flags := byteAt payload 2
  let other := flags.extractLsb' 2 6
  if flags.getLsbD 1 then .cancelSweep via (flags.getLsbD 0) port other
  else if flags.getLsbD 0 then .cancelAll via port other
  else .cancel via port other

/-- A SETUP request as its row's command: items 1 to 4 are the segment entries (R187); bytes beyond those the item needs are
disregarded (R173). -/
def setupCommand (via : Nat → Via) (payload : List Byte) : Instr :=
  let item := byteAt payload 1
  let entry := fun (i : Fin 4) =>
    Instr.setupSegmentEntry (via 5) i (byteAt payload 2) (byteAt payload 3) (byteAt payload 4)
  if item = 1 then entry 0
  else if item = 2 then entry 1
  else if item = 3 then entry 2
  else if item = 4 then entry 3
  else .setup (via (setupBytes item)) item ((payload.take (setupBytes item)).drop 2)

/-- The row a payload of at least the bytes its kind needs belongs to, by its request kind (Table 10-1). -/
def kindCommand (via : Nat → Via) (payload : List Byte) : Option Instr :=
  let kind := byteAt payload 0
  let a := byteAt payload 1
  let b := byteAt payload 2
  let c := byteAt payload 3
  let d := byteAt payload 4
  let e := byteAt payload 5
  if kind = 1 then some (.measure (via 6) a b c d e)
  else if kind = 2 then some (.sweep (via 6) a b c d e)
  else if kind = 3 then some (cancelCommand (via 3) payload)
  else if kind = 4 then trainCommand via payload
  else if kind = 5 then queryCommand via payload
  else if kind = 6 then some (setupCommand via payload)
  else if kind = 7 then some (.lock (via 1))
  else if kind = 8 then some (.calibrate (via 1))
  else if kind = 9 then (if a = 0 then some (.resetPort (via 3) b) else if a = 1 then some (.resetStation (via 3) b) else none)
  else none

/-- A REQUEST's payload as the command of its row; a payload of no row is the row's that R173 answers BAD_KIND. -/
def requestCommand (broadcast : Bool) (payload : List Byte) : Instr :=
  if payload.length < bytesNeeded payload then .badKindRequest broadcast payload
  else (kindCommand (fun n => ⟨broadcast, payload.drop n⟩) payload).getD (.badKindRequest broadcast payload)

/-- A good frame of another party as the command of the row of Table 8-4 that takes it. -/
def frameCommand (number : StationNo) (f : RxFrame) : Instr :=
  match frameAction number f with
  | .duplicate => .ownNumberFrameTaken f.kind f.dest f.payload
  | .discard => .discardedFrame f false
  | .claim n t p d => .claimTaken f.source n t p d
  | .release n t => .releaseTaken f.source n t
  | .rejoin c => .rejoinTaken f.source c
  | .request b => requestCommand b f.payload

/-- The station's own frame leaves the line in a way, as the command of its kind (Table 8-5). -/
def departureCommand (f : Frame) (how : Departure) : Option Instr :=
  match f.kind, f.channel with
  | .rejoin, _ => some (.rejoinDeparture how)
  | .report, _ => some (.reportDeparture how)
  | .alert, _ => some (.alertDeparture how)
  | .release, some ch => some (.releaseDeparture ch how)
  | .claim, some ch => some (.claimFrameDeparture ch how)
  | .release, none => none
  | .claim, none => none

/-- DISCARDED_FRAME (R143, R144, R142): a voided frame is acted on by no receiver; a good one takes its row of Table 8-4, which
for the frames of this row is to discard it. -/
def execDiscardedFrame (frame : RxFrame) (voided : Bool) (s : State) : Result :=
  .next (
    if canTake s then (if voided then endFrame s else actOnFrame frame (endFrame s)) else s)

end Sys2Proof.Machine
end

