-- ==== Sys2Proof/Machine/Watch.lean ====
section
/-! DEFINITION. The link-quality watch (Chapter 3): the meaning of the receive events, of the loss of energy, of the watch's
timers and of the drop path's settle. -/

namespace Sys2Proof.Machine

/-- The error-free timer returns to 0 and goes on as it ran (R15). -/
def restartErrorFree (pt : Port) : Port := { pt with train.errorFree := { pt.train.errorFree with elapsed := 0 } }

/-- What a receive event that disturbs QUALIFYING does there: nothing while the port is shadowed (R15, R56). -/
def disturbQualifying (p : PortId) (s : State) : State :=
  if (s.port p).isIn .qualifying && !(s.port p).train.shadowed then s.modPort p restartErrorFree else s

/-- One event of a count criterion in COUNTING: `now` is the count with it, `store` writes it back (R49). -/
def countEvent (p : PortId) (cause : DropCause) (now threshold : Nat) (store : Watch → Watch) (s : State) : State :=
  if threshold ≤ now then qualityDrop p cause s
  else s.modPort p (fun pt => { pt with watch := store pt.watch })

/-- The port is UP and its watch counts (R46). -/
def Port.counting (pt : Port) : Bool := pt.isIn .up && pt.watch.condition == .counting

/-- SYMBOL_ERROR (R15, R49, R53, R54). -/
def execSymbolError (p : PortId) (s : State) : Result :=
  .next (
    let w := (s.port p).watch
    if (s.port p).counting && (symbolStatus (s.criteria p)).counts then
      countEvent p .symbolErrors (w.symbol + 1) s.setup.thresholdE (fun v => { v with symbol := w.symbol + 1 }) s
    else disturbQualifying p s)

/-- IDLE_ERROR (R15, R49, R53, R54). -/
def execIdleError (p : PortId) (s : State) : Result :=
  .next (
    let w := (s.port p).watch
    if (s.port p).counting && (idleStatus (s.criteria p)).counts then
      countEvent p .idleErrors (w.idle + 1) s.setup.thresholdI (fun v => { v with idle := w.idle + 1 }) s
    else disturbQualifying p s)

/-- MARGIN_DIP (R47, R49, R53, R54). -/
def execMarginDip (p : PortId) (s : State) : Result :=
  .next (
    let w := (s.port p).watch
    if (s.port p).counting && (marginStatus (s.criteria p)).counts then
      countEvent p .marginDips (w.margin + 1) s.setup.thresholdM (fun v => { v with margin := w.margin + 1 }) s
    else s)

/-- LOSS_OF_LOCK (R15, R51, R53): it acts at an UP port whether shadowed or not. -/
def execLossOfLock (p : PortId) (s : State) : Result :=
  .next (
    if (s.port p).isIn .up && (lockStatus (s.criteria p)).counts then qualityDrop p .lockLoss s
    else disturbQualifying p s)

/-- Energy is absent at the port from now on; a DORMANT port's wake timer returns to 0 (R3). -/
def loseEnergy (pt : Port) : Port :=
  let pt' := { pt with front.energy := false }
  if pt.isIn .dormant then { pt' with timers.wake := Timer.off } else pt'

/-- ENERGY_DISAPPEARS (R3, R50, R52). -/
def execEnergyDisappears (p : PortId) (s : State) : Result :=
  .next (onPort p (fun pt => pt.front.energy) (fun s =>
    let s' := s.modPort p loseEnergy
    if (s.port p).isIn .up then
      if (energyStatus (s.criteria p)).counts then qualityDrop p .energyLoss s'
      else s'.modPort p (fun pt => { pt with watch.silence := Timer.start silenceTime })
    else s') s)

/-- A fresh watch window with counts 0 (R48). -/
def nextWindow (window : Nat) (w : Watch) : Watch :=
  { w with window := Timer.start window, symbol := 0, idle := 0, margin := 0 }

/-- WINDOW_EXPIRY (R48). -/
def execWindowExpiry (p : PortId) (s : State) : Result :=
  .next (onPort p Port.counting (fun s =>
    s.modPort p (fun pt => { pt with watch := nextWindow s.setup.window pt.watch })) s)

/-- SILENCE (R52, R53). -/
def execSilence (p : PortId) (s : State) : Result :=
  .next (onPort p (fun pt => pt.isIn .up && pt.watch.silence.running) (qualityDrop p .silence) s)

/-- SETTLE gives way to AWAIT in one step (R58). -/
def settleToAwait (pt : Port) : Port := { pt with train.holds := { pt.train.holds with settle := false, await := true } }

/-- What follows the drop settle (R58): no request while a channel holds the port; otherwise the DROP request, with its
three results. -/
def afterDropSettle (p : PortId) (s : State) : State :=
  if (s.port p).train.holds.channel then unhold p dropSettleHold s
  else
    match autoRequest p (dropRequest s) s with
    | some s' => react (s'.modPort p settleToAwait)
    | none => noteQueueFull p (unhold p dropSettleHold s)

/-- DROP_SETTLE_EXPIRY (R58). -/
def execDropSettleExpiry (p : PortId) (s : State) : Result :=
  .next (onPort p (fun pt => pt.watch.dropSettle.running) (fun s => afterDropSettle p (stopDropSettle p s)) s)

end Sys2Proof.Machine
end

