-- ==== Sys2Proof/Machine/Clock.lean ====
section
/-! DEFINITION. The reference clock (section 5.2): one µs of every timer and one bit time of STL, and the event that is due
when a timer's interval has fully elapsed or the line's bits call for it (assumption log 1, 34). What the link partners, the
fabric side and the digitizer do comes by command alone (assumption log 28). -/

namespace Sys2Proof.Machine

/-! ### One µs (the timers of Tables 1-4, 3-2, 4-3, 5-1, 8-1, 9-2, 11-1) -/

def tickTimers (t : TrainTimers) : TrainTimers :=
  { t with
    wake := t.wake.tick, settle := t.settle.tick, offering := t.offering.tick, pageRepeat := t.pageRepeat.tick
    alternation := t.alternation.tick, legacy := t.legacy.tick, resolving := t.resolving.tick
    identify := t.identify.tick, patternRepeat := t.patternRepeat.tick, probeRepeat := t.probeRepeat.tick
    qualifyA := t.qualifyA.tick, qualifyB := t.qualifyB.tick, qualifying := t.qualifying.tick, backoff := t.backoff.tick }

def tickWatch (w : Watch) : Watch :=
  { w with window := w.window.tick, silence := w.silence.tick, dropSettle := w.dropSettle.tick }

def tickPort (pt : Port) : Port :=
  { pt with train.errorFree := pt.train.errorFree.tick, timers := tickTimers pt.timers, watch := tickWatch pt.watch }

/-- A local claim's µs. A claim that has entered HOLDOFF at its CLAIM's objection slot starts its hold-off with the bit time that
follows, the end bit (R157). -/
def tickClaim (l : LocalClaim) : LocalClaim :=
  { l with
    holdoff := if l.state = .holdoff ∧ l.holdoff.running = false then Timer.start holdoffTime else l.holdoff.tick
    yieldTimer := l.yieldTimer.tick }

/-- A channel's µs; the next shot period begins where the last one ends, without a gap (R91). -/
def tickChannel (c : Channel) : Channel :=
  let c' := { c with settle := c.settle.tick, shot := c.shot.tick, claim := c.claim.map tickClaim }
  if c'.beforeLaunch && c'.stage == .recovery && c'.shot.expired then { c' with stage := .gap, shot := Timer.start 16 }
  else c'

def tickOnLine (o : OnLine) : OnLine := { o with position := min o.bits.length (o.position + 1) }

/-- A bit time of STL at a level: the bit is read, and the own frame goes on to its next bit (R136, R139, R142). -/
def tickLine (level : Bool) (l : Line) : Line :=
  let l' := readBit level l
  { l' with listenIn := l'.listenIn.tick, onLine := l'.onLine.map tickOnLine }

def tickStation (st : Station) : Station :=
  { st with listen := st.listen.tick, calibrating := st.calibrating.tick, window := st.window.tick }

/-- A port's µs, with what calibration does at it (R185). -/
def tickPortAt (st : Station) (p : PortId) (pt : Port) : Port :=
  { tickPort pt with front := calibrateTick st p pt.front }

/-- One µs passes, and with it one bit time of STL (section 8.2). -/
def advance (s : State) : State :=
  { s.mapPorts (tickPortAt (tickStation s.station)) with
    station := tickStation s.station
    sweep := { s.sweep with period := s.sweep.period.tick }
    budget := { s.budget with window := s.budget.window.tick, pace := s.budget.pace.tick }
    channels := ⟨#[tickChannel (s.chan 0), tickChannel (s.chan 1)], rfl⟩
    line := tickLine (lineLevel s) s.line
    wire := s.wire.tail
    now := s.now + 1 }

/-! ### What is due -/

/-- The first event of a list that is due. -/
def firstDue : List (Bool × Instr) → Option Instr
  | [] => none
  | (due, c) :: rest => if due then some c else firstDue rest

/-- The events of a port, each with whether it is due. The 1 ms of the probes runs on through a shadow, so that a probe that
came due within it goes out as the shadow ends (R33; the spec names no moment, assumption log 33). -/
def portDue (p : PortId) (pt : Port) : List (Bool × Instr) :=
  [ (pt.isIn .dormant && pt.front.energy && pt.timers.wake.expired, .energyWake p),
    (pt.isIn .settling && pt.timers.settle.expired, .settleExpiry p),
    (pt.isIn .offering && pt.timers.pageRepeat.expired, .offerPageSend p),
    (pt.isIn .offering && !pt.train.pageHeard && pt.timers.alternation.expired, .crossoverAlternation p),
    (pt.isIn .offering && !pt.train.pageHeard && pt.timers.legacy.expired, .legacyDetection p),
    (pt.isIn .offering && pt.timers.offering.expired, .offeringLimit p),
    (pt.exchanging && pt.timers.patternRepeat.expired, .identificationSend p),
    (pt.exchanging && pt.res.probing && !pt.train.shadowed && pt.timers.probeRepeat.expired, .probeLaunch p),
    (pt.exchanging && !pt.res.identified && pt.timers.identify.expired, .identificationLimit p),
    (pt.listeningIn && pt.timers.qualifyA.expired, .pairQualifies p .A),
    (pt.listeningIn && pt.timers.qualifyB.expired, .pairQualifies p .B),
    (pt.listeningIn && pt.timers.identify.expired, .crossingListenLimit p),
    (pt.isIn .resolving && pt.timers.resolving.expired, .resolvingLimit p),
    (pt.isIn .qualifying && !pt.train.shadowed && pt.train.errorFree.expired, .errorFreeTarget p),
    (pt.isIn .qualifying && pt.timers.qualifying.expired, .qualifyingLimit p),
    (pt.isIn .backoff && pt.timers.backoff.expired, .backoffExpiry p),
    (pt.counting && pt.watch.window.expired, .windowExpiry p),
    (pt.isIn .up && pt.watch.silence.expired, .silence p),
    (pt.watch.dropSettle.expired, .dropSettleExpiry p) ]

/-- The events of a channel, each with whether it is due. The distance unit's result returns as soon as the capture has
closed; the rule says only that it does so within the shot's recovery (R103; assumption log 33). -/
def channelDue (s : State) (ch : ChannelId) : List (Bool × Instr) :=
  let c := s.chan ch
  [ (c.phase == .preparing && c.settle.expired, .channelSettleExpiry ch),
    ((holdoffClaim c).any (fun l => l.holdoff.expired), .holdoffEnd ch),
    (c.phase == .waitYield && c.claim.any (fun l => l.yieldTimer.expired), .yieldLimit ch),
    (c.phase == .bursting && c.working.isSome, .pairResultReturn ch),
    (c.beforeLaunch && c.stage == .gap && decide (4 ≤ c.shot.elapsed) && c.meas.isSome && (heldEntry ch s).isSome,
      .launchTrigger ch),
    (c.lastRecovery && c.shot.expired && c.meas.isSome, .burstEnd ch) ]

/-- A view entry's own times (R160). -/
def entryDue (now : Nat) (v : ViewEntry) : List (Bool × Instr) :=
  [ (decide (v.expiry ≤ now), .viewEntryExpiry v.station v.number),
    (!v.active && decide (v.activeAt ≤ now), .viewEntryActive v.station v.number) ]

/-- The events of the station, its line, its scheduler and its budget. -/
def stationDue (s : State) : List (Bool × Instr) :=
  [ (s.station.phase == .listen && s.station.listen.expired, .listenTimerExpiry),
    (s.station.phase == .setup && s.station.window.expired, .setupWindowExpiry),
    (s.line.listenIn.expired, .returnListenInEnd),
    (mayStart s, .frameStart),
    (s.station.phase == .run && s.budget.window.expired, .budgetWindowExpiry),
    (s.budget.pace.expired, .paceIntervalPassed),
    (s.sweep.status == .waitingPeriod && s.sweep.period.expired, .sweepPeriodExpiry) ]

/-- What the bits of the own frame on the line call for: a conflict read last, or its departure once its objection slot has
been read (R140, R141, R143, R147). -/
def ownFrameDue (o : OnLine) (l : Line) : List (Bool × Instr) :=
  [ (readConflict o l && losesArbitration o l, .arbitrationLoss),
    (readConflict o l && faultsTransmit o l, .transmitFault) ] ++
  match departureCommand o.frame (if l.heard.getLast? == some false then .voided else .sent) with
  | some c => [(decide (l.heard.length = ownSlot o), c)]
  | none => []

/-- What the bits read call for (R136, R142 to R144, R149, R151). -/
def lineDue (s : State) : List (Bool × Instr) :=
  [ (s.line.condition != .stuck && decide (65 ≤ s.line.dominantRun), .stuckEntry),
    (s.line.condition == .stuck && s.line.idleCount == 11, .lineReturn),
    (canTake s && objectionDue s.line, .receiveCheckFailure (coveredRead s.line.heard) (checkRead s.line.heard) (spacersRead s.line.heard)),
    (canTake s && wholeHeard s.line,
      if slotDominant s.line.heard then .discardedFrame (frameRead s.line.heard) true
      else frameCommand s.station.number (frameRead s.line.heard)) ] ++
  match s.line.onLine with
  | some o => ownFrameDue o s.line
  | none => []

/-- Every event that can be due, in the model's order: line, station, claim view, channels, ports (assumption log 1). -/
def allDue (s : State) : List (Bool × Instr) :=
  lineDue s ++ stationDue s ++ s.view.flatMap (entryDue s.now) ++ channelDue s 0 ++ channelDue s 1 ++
    allPorts.flatMap (fun p => portDue p (s.port p))

/-- The event that is due now. -/
def due (s : State) : Option Instr := firstDue (allDue s)

end Sys2Proof.Machine
end

