-- ==== Sys2Proof/Machine/Dispatch.lean ====
section
/-! DEFINITION. The dispatch of every command to its meaning, one arm per row of the table. -/

namespace Sys2Proof.Machine

def exec (i : Instr) (s : State) : Host.Outcome State Fault Refusal :=
  match i with
  | .powerOnReset straps => Sys2Proof.Machine.execPowerOnReset straps s
  | .hardReset straps => Sys2Proof.Machine.execHardReset straps s
  | .energyAppears p atEntry => Sys2Proof.Machine.execEnergyAppears p atEntry s
  | .energyDisappears p => Sys2Proof.Machine.execEnergyDisappears p s
  | .symbolError p => Sys2Proof.Machine.execSymbolError p s
  | .idleError p => Sys2Proof.Machine.execIdleError p s
  | .marginDip p => Sys2Proof.Machine.execMarginDip p s
  | .lossOfLock p => Sys2Proof.Machine.execLossOfLock p s
  | .energyWake p => Sys2Proof.Machine.execEnergyWake p s
  | .settleExpiry p => Sys2Proof.Machine.execSettleExpiry p s
  | .offerPageSend p => Sys2Proof.Machine.execOfferPageSend p s
  | .crossoverAlternation p => Sys2Proof.Machine.execCrossoverAlternation p s
  | .offerPageHearing p page => Sys2Proof.Machine.execOfferPageHearing p page s
  | .legacyDetection p => Sys2Proof.Machine.execLegacyDetection p s
  | .offeringLimit p => Sys2Proof.Machine.execOfferingLimit p s
  | .identificationSend p => Sys2Proof.Machine.execIdentificationSend p s
  | .identificationHearing p x letter inverted => Sys2Proof.Machine.execIdentificationHearing p x letter inverted s
  | .identificationLimit p => Sys2Proof.Machine.execIdentificationLimit p s
  | .pairQualifies p x => Sys2Proof.Machine.execPairQualifies p x s
  | .crossingListenLimit p => Sys2Proof.Machine.execCrossingListenLimit p s
  | .identifiedMarkerHeard p => Sys2Proof.Machine.execIdentifiedMarkerHeard p s
  | .probedMarkerHeard p => Sys2Proof.Machine.execProbedMarkerHeard p s
  | .probeLaunch p => Sys2Proof.Machine.execProbeLaunch p s
  | .partnerProbe p x => Sys2Proof.Machine.execPartnerProbe p x s
  | .probeReturn p x quarterTicks => Sys2Proof.Machine.execProbeReturn p x quarterTicks s
  | .doneMarkerHeard p => Sys2Proof.Machine.execDoneMarkerHeard p s
  | .resolvingLimit p => Sys2Proof.Machine.execResolvingLimit p s
  | .errorFreeTarget p => Sys2Proof.Machine.execErrorFreeTarget p s
  | .qualifyingLimit p => Sys2Proof.Machine.execQualifyingLimit p s
  | .backoffExpiry p => Sys2Proof.Machine.execBackoffExpiry p s
  | .windowExpiry p => Sys2Proof.Machine.execWindowExpiry p s
  | .silence p => Sys2Proof.Machine.execSilence p s
  | .dropSettleExpiry p => Sys2Proof.Machine.execDropSettleExpiry p s
  | .measure via port pairs reach averaging intrusive => Sys2Proof.Machine.execMeasure via port pairs reach averaging intrusive s
  | .sweep via portsHi portsLo reach averaging period => Sys2Proof.Machine.execSweep via portsHi portsLo reach averaging period s
  | .sweepPeriodExpiry => Sys2Proof.Machine.execSweepPeriodExpiry s
  | .cancel via port other => Sys2Proof.Machine.execCancel via port other s
  | .cancelAll via port other => Sys2Proof.Machine.execCancelAll via port other s
  | .cancelSweep via every port other => Sys2Proof.Machine.execCancelSweep via every port other s
  | .restart via port => Sys2Proof.Machine.execRestart via port s
  | .restartFull via port => Sys2Proof.Machine.execRestartFull via port s
  | .force via port grade => Sys2Proof.Machine.execForce via port grade s
  | .offer via port grades pref => Sys2Proof.Machine.execOffer via port grades pref s
  | .enable via port => Sys2Proof.Machine.execEnable via port s
  | .disable via port => Sys2Proof.Machine.execDisable via port s
  | .resetPort via port => Sys2Proof.Machine.execResetPort via port s
  | .resetStation via port => Sys2Proof.Machine.execResetStation via port s
  | .querySummary via => Sys2Proof.Machine.execQuerySummary via s
  | .queryPort via port page => Sys2Proof.Machine.execQueryPort via port page s
  | .queryCounters via port page => Sys2Proof.Machine.execQueryCounters via port page s
  | .queryDiagHead via port => Sys2Proof.Machine.execQueryDiagHead via port s
  | .queryEcho via port pair index => Sys2Proof.Machine.execQueryEcho via port pair index s
  | .queryLength via port => Sys2Proof.Machine.execQueryLength via port s
  | .queryStation via page => Sys2Proof.Machine.execQueryStation via page s
  | .queryClaimEntry via index => Sys2Proof.Machine.execQueryClaimEntry via index s
  | .setup via item operands => Sys2Proof.Machine.execSetup via item operands s
  | .setupSegmentEntry via index port hi lo => Sys2Proof.Machine.execSetupSegmentEntry via index port hi lo s
  | .lock via => Sys2Proof.Machine.execLock via s
  | .calibrate via => Sys2Proof.Machine.execCalibrate via s
  | .channelSettleExpiry ch => Sys2Proof.Machine.execChannelSettleExpiry ch s
  | .claimFrameDeparture ch how => Sys2Proof.Machine.execClaimFrameDeparture ch how s
  | .holdoffEnd ch => Sys2Proof.Machine.execHoldoffEnd ch s
  | .yieldLimit ch => Sys2Proof.Machine.execYieldLimit ch s
  | .launchTrigger ch => Sys2Proof.Machine.execLaunchTrigger ch s
  | .busyCheckFailure ch sample => Sys2Proof.Machine.execBusyCheckFailure ch sample s
  | .captureClose ch input => Sys2Proof.Machine.execCaptureClose ch input s
  | .pairResultReturn ch => Sys2Proof.Machine.execPairResultReturn ch s
  | .burstEnd ch => Sys2Proof.Machine.execBurstEnd ch s
  | .releaseDeparture ch how => Sys2Proof.Machine.execReleaseDeparture ch how s
  | .budgetWindowExpiry => Sys2Proof.Machine.execBudgetWindowExpiry s
  | .paceIntervalPassed => Sys2Proof.Machine.execPaceIntervalPassed s
  | .claimTaken src number target priority duration => Sys2Proof.Machine.execClaimTaken src number target priority duration s
  | .releaseTaken src number target => Sys2Proof.Machine.execReleaseTaken src number target s
  | .rejoinTaken src cause => Sys2Proof.Machine.execRejoinTaken src cause s
  | .viewEntryActive station number => Sys2Proof.Machine.execViewEntryActive station number s
  | .viewEntryExpiry station number => Sys2Proof.Machine.execViewEntryExpiry station number s
  | .frameStart => Sys2Proof.Machine.execFrameStart s
  | .arbitrationLoss => Sys2Proof.Machine.execArbitrationLoss s
  | .transmitFault => Sys2Proof.Machine.execTransmitFault s
  | .receiveCheckFailure bytes check spacers => Sys2Proof.Machine.execReceiveCheckFailure bytes check spacers s
  | .ownNumberFrameTaken kind dest payload => Sys2Proof.Machine.execOwnNumberFrameTaken kind dest payload s
  | .reportDeparture how => Sys2Proof.Machine.execReportDeparture how s
  | .alertDeparture how => Sys2Proof.Machine.execAlertDeparture how s
  | .rejoinDeparture how => Sys2Proof.Machine.execRejoinDeparture how s
  | .stuckEntry => Sys2Proof.Machine.execStuckEntry s
  | .lineReturn => Sys2Proof.Machine.execLineReturn s
  | .returnListenInEnd => Sys2Proof.Machine.execReturnListenInEnd s
  | .listenTimerExpiry => Sys2Proof.Machine.execListenTimerExpiry s
  | .calibrationDone input => Sys2Proof.Machine.execCalibrationDone input s
  | .setupWindowExpiry => Sys2Proof.Machine.execSetupWindowExpiry s
  | .lineIdle => Sys2Proof.Machine.execLineIdle s
  | .strayBit => Sys2Proof.Machine.execStrayBit s
  | .discardedFrame frame voided => Sys2Proof.Machine.execDiscardedFrame frame voided s
  | .badKindRequest broadcast payload => Sys2Proof.Machine.execBadKindRequest broadcast payload s
  | .g2IdleStreamChange p present => Sys2Proof.Machine.execG2IdleStreamChange p present s
  | .partnerLinkSignalChange p x present => Sys2Proof.Machine.execPartnerLinkSignalChange p x present s

end Sys2Proof.Machine
end

