-- ==== Sys2Proof/Machine/Step.lean ====
section
/-! DEFINITION. One step of the block: the command at the front of the queue, or, when none waits, the event that is due, or
one µs of the clock. -/

namespace Sys2Proof.Machine

/-- An empty queue: the event that is due now, else one µs passes (assumption log 1). -/
def idleStep (s : State) : Host.Outcome State Fault Refusal :=
  match due s with
  | some c => exec c s
  | none => .next (advance s)

/-- One step: first in, first out. -/
def step (s : State) : Host.Outcome State Fault Refusal :=
  match s.pending with
  | c :: rest => exec c { s with pending := rest }
  | [] => idleStep s

/-- The command a table word spells, put at the front of the queue; the table spells none (assumption log 22). -/
def State.withFetchWord (s : State) (nbits w : Nat) : State :=
  match decodeTableWord nbits w with
  | some c => { s with pending := c :: s.pending }
  | none => s

end Sys2Proof.Machine
end

