-- ==== Sys2Proof/Safety.lean ====
section
/-! DEFINITION. What a sound state of the block is, in the terms of the spec's whole-machine rules: the invariants that every
step keeps, the frames the statements speak of, and the conditions that make an event due. -/

namespace Sys2Proof.Machine

/-! ### Frames -/

/-- t is s but for port p. -/
def SameButPort (p : PortId) (s t : State) : Prop := t = s.modPort p (fun _ => t.port p)

/-- What no shared operation on measurements, claims or ports changes: the station controller, the setup store, the claim view
and its unknown count, the station counters, the clock, the queue of waiting commands and the levels to come on STL. -/
structure KeepsRest (s t : State) : Prop where
  station : t.station = s.station
  setup : t.setup = s.setup
  view : t.view = s.view
  unknownReleases : t.unknownReleases = s.unknownReleases
  counters : t.counters = s.counters
  now : t.now = s.now
  pending : t.pending = s.pending
  wire : t.wire = s.wire

/-- t is s but for port p and the events raised: the summary keeps what it held, and the transmit list has grown by one ALERT
exactly when an empty summary has become non-empty with no ALERT waiting (R131, R132). -/
structure OnlyPortAndEvents (p : PortId) (s t : State) : Prop where
  rest : t = { s.modPort p (fun _ => t.port p) with summary := t.summary, line := { s.line with list := t.line.list } }
  kept : ∀ e, s.summary.has e = true → t.summary.has e = true
  alert : t.line.list =
    if s.summary = Summary.empty ∧ t.summary ≠ Summary.empty ∧ countKind .alert s.line.list = 0 then
      insertFrame ⟨.alert, [], none, false⟩ s.line.list
    else s.line.list

/-! ### Ports after an entry -/

/-- The fields of an attempt or link are cleared (R18 step 2, R20). -/
def AttemptCleared (t : Training) : Prop :=
  t.partner = none ∧ t.hearing = 0 ∧ t.accepted = false ∧ t.grade = none ∧ t.role = none

/-- The fields that only the console, the downshift interlock, the reset and the claim view change are kept. -/
def SettingsKept (a b : Training) : Prop :=
  b.consoleDisabled = a.consoleDisabled ∧ b.offerMask = a.offerMask ∧ b.rolePref = a.rolePref ∧ b.forced = a.forced ∧
    b.downshiftCheck = a.downshiftCheck ∧ b.lastFailure = a.lastFailure ∧ b.lastDrop = a.lastDrop ∧ b.shadowed = a.shadowed

/-- The failure counts, pair health and downshift are kept. -/
def CountsKept (a b : Training) : Prop :=
  b.consecutive = a.consecutive ∧ b.fourPair = a.fourPair ∧ b.runAlerted = a.runAlerted ∧ b.health = a.health ∧
    b.downshift = a.downshift

/-- All of a port but its training fields and training timers is kept. -/
def RestOfPortKept (a b : Port) : Prop := b.front = a.front ∧ b.res = a.res ∧ b.watch = a.watch ∧ b.store = a.store

/-- Port a has entered SETTLING as b, with the settle code in force (R4). -/
def EntersSettling (code : Nat) (a b : Port) : Prop :=
  b.train.state = .settling ∧ b.train.holds = ⟨false, false, false⟩ ∧ b.timers.settle = ⟨true, 0, 1000 * 4 ^ code⟩ ∧
    AttemptCleared b.train ∧ SettingsKept a.train b.train ∧ CountsKept a.train b.train ∧ RestOfPortKept a b

/-- Port a has entered DORMANT as b, with the entry effects of R2. -/
def EntersDormant (a b : Port) : Prop :=
  b.train.state = .dormant ∧ b.train.holds = ⟨false, false, false⟩ ∧ AttemptCleared b.train ∧ SettingsKept a.train b.train ∧
    b.train.consecutive = 0 ∧ b.train.fourPair = 0 ∧ b.train.runAlerted = false ∧
    b.train.health = ⟨.unknown, .unknown, .unknown, .unknown⟩ ∧ b.train.downshift = false ∧ b.train.tieCount = 0 ∧
    RestOfPortKept a b

/-- Port a has taken re-entry as b: SETTLING with energy present, DORMANT without (R2). -/
def TakesReEntry (code : Nat) (a b : Port) : Prop :=
  if a.front.energy then EntersSettling code a b else EntersDormant a b

/-- Port p leaves UP as s becomes t by a drop of the quality watch (R17, R46, R53, R57, R60). -/
def QualityDropped (p : PortId) (cause : DropCause) (s t : State) : Prop :=
  OnlyPortAndEvents p s t ∧ t.summary = s.summary.add (.linkDown p) ∧
    (t.port p).front = (s.port p).front ∧ (t.port p).res = (s.port p).res ∧
    (t.port p).store = { (s.port p).store with drops := countDrop (s.port p).store.drops cause } ∧
    (t.port p).train.lastDrop = some cause ∧ AttemptCleared (t.port p).train ∧
    (t.port p).watch.condition = .off ∧ (t.port p).watch.symbol = 0 ∧ (t.port p).watch.idle = 0 ∧
    (t.port p).watch.margin = 0 ∧ (t.port p).watch.window.running = false ∧ (t.port p).watch.silence.running = false ∧
    if s.setup.diagnose.has p then
      (t.port p).train.state = .held ∧ (t.port p).train.holds = ⟨false, true, false⟩ ∧
        (t.port p).watch.dropSettle = ⟨true, 0, 1000 * 4 ^ s.setup.dropSettle⟩
    else
      (t.port p).train.state = (if (s.port p).front.energy then .settling else .dormant) ∧
        (t.port p).train.holds = ⟨false, false, false⟩ ∧ (t.port p).watch.dropSettle = (s.port p).watch.dropSettle

/-- The attempt of port p fails with a cause as s becomes t, and no downshift test follows (R18, R19). -/
def AttemptFailed (p : PortId) (cause : FailureCause) (counted : Bool) (s t : State) : Prop :=
  OnlyPortAndEvents p s t ∧ (t.port p).train.state = .backoff ∧ (t.port p).train.holds = ⟨false, false, false⟩ ∧
    AttemptCleared (t.port p).train ∧ (t.port p).train.lastFailure = some cause ∧
    (t.port p).train.consecutive = min 15 ((s.port p).train.consecutive + 1) ∧
    (t.port p).train.fourPair = (if counted then min 15 ((s.port p).train.fourPair + 1) else (s.port p).train.fourPair) ∧
    (t.port p).timers.backoff = ⟨true, 0, 64000 * 2 ^ min (min 15 ((s.port p).train.consecutive + 1)) 5⟩ ∧
    (if (s.port p).train.runAlerted = false ∧ 8 ≤ min 15 ((s.port p).train.consecutive + 1) then
      t.summary = s.summary.add (.trainFailed p) ∧ (t.port p).train.runAlerted = true
    else t.summary = s.summary ∧ (t.port p).train.runAlerted = (s.port p).train.runAlerted) ∧
    (t.port p).train.forced = (s.port p).train.forced ∧ (t.port p).train.downshift = (s.port p).train.downshift ∧
    (t.port p).train.health = (s.port p).train.health ∧ (t.port p).front = (s.port p).front ∧
    (t.port p).watch = (s.port p).watch ∧ (t.port p).store = (s.port p).store

/-- What a failed attempt notes at port p as s becomes t, whatever test follows (R18). -/
def FailureNoted (p : PortId) (cause : FailureCause) (s t : State) : Prop :=
  AttemptCleared (t.port p).train ∧ (t.port p).train.lastFailure = some cause ∧
    (t.port p).train.consecutive = min 15 ((s.port p).train.consecutive + 1) ∧
    (t.port p).train.health = (s.port p).train.health ∧ (t.port p).train.forced = (s.port p).train.forced ∧
    (t.port p).front = (s.port p).front ∧ (t.port p).res = (s.port p).res ∧ (t.port p).watch = (s.port p).watch ∧
    (t.port p).store = (s.port p).store

/-- Port p waits, HELD for the measurement that the first downshift test asked for (R39). -/
def AwaitsDownshiftCheck (p : PortId) (cause : FailureCause) (s t : State) : Prop :=
  FailureNoted p cause s t ∧ (t.port p).train.state = .held ∧ (t.port p).train.holds = ⟨false, false, true⟩ ∧
    (t.port p).train.downshiftCheck = true ∧ (t.port p).train.downshift = (s.port p).train.downshift ∧
    (t.port p).train.fourPair = s.setup.downshiftAttempts

/-- The front end of port p as its attempt fails with a cause: a SOURCE port that fails the skew test has sent PROBED with its patterns
(R33, R34; assumption log 37), any other port has launched nothing more. -/
def frontAtFailure (p : PortId) (cause : FailureCause) (s : State) : FrontEnd :=
  if cause = .skewLimit ∧ (s.port p).train.role = some .source then
    { (s.port p).front with
      launched := [.patterns (s.port p).gradePairs ⟨(s.port p).res.identified, true, (s.port p).res.checksPassed⟩] }
  else (s.port p).front

/-- w is s with the resolution results and the signals that a failure with this cause leaves at port p, its training fields as they
were. -/
def FailsWith (p : PortId) (cause : FailureCause) (s w : State) : Prop :=
  SameButPort p s w ∧ (w.port p).train = (s.port p).train ∧ (w.port p).front = frontAtFailure p cause s ∧
    (cause = .pairMissing → (w.port p).res.missing.isSome)

/-- A four-pair failure of port p now brings no downshift test: the grade is two-pair, the count does not come to the attempts
setting, or downshift enable is off (R18 step 6, R38). -/
def NoDownshiftTest (p : PortId) (s : State) : Prop :=
  (s.port p).train.grade.any fourPairGrade = false ∨
    min 15 ((s.port p).train.fourPair + 1) ≠ s.setup.downshiftAttempts ∨ s.setup.downshiftEnable = false

/-- Every block but the station controller and the setup store as a station-level reset leaves it (Tables 1-5, 2-6, 3-3, 4-4, 5-7,
6-7, 7-5, 8-6, 9-5). -/
def BlocksReset (s t : State) : Prop :=
  (∀ p, t.port p = Port.fresh (s.port p).front) ∧ t.queue = [] ∧ t.arrival = 0 ∧ t.sweep = Sweep.fresh ∧
    t.budget = Budget.fresh ∧ (∀ ch, t.chan ch = Channel.fresh) ∧ t.claimCounter = 0 ∧ t.view = [] ∧
    t.unknownReleases = 0 ∧ t.line = Line.fresh ∧ t.counters = Counters.zero ∧ t.sequence = 0 ∧ t.summary = Summary.empty ∧
    t.now = s.now ∧ t.draws = s.draws ∧ t.wire = s.wire ∧ t.pending = s.pending

/-- The station controller after a hard reset or a RESET STATION (Table 11-4). -/
def StationRestarts (cause : StartCause) (a b : Station) : Prop :=
  b.population = a.population ∧ b.phase = .listen ∧ b.listen = ⟨true, 0, 20000⟩ ∧ b.cause = cause ∧ b.announced = false ∧
    b.locked = a.locked ∧ b.window = ⟨false, 0, 0⟩ ∧ b.calibrating = ⟨false, 0, 0⟩ ∧
    if a.phase = .calibrating then b.calibration = none ∧ b.calFaults = PortSet.none
    else b.calibration = a.calibration ∧ b.calFaults = a.calFaults

/-- The station enters RUN as s becomes t (R5, R83, R188): every port leaves OFFLINE, the budget window starts, and the timers of
the start sequence are stopped. What the arbiter then does follows. -/
def RunEntered (s t : State) : Prop :=
  t = { s with ports := t.ports, station := t.station, budget := t.budget } ∧
    t.station = { s.station with
      phase := .run, listen := ⟨false, 0, 0⟩, calibrating := ⟨false, 0, 0⟩, window := ⟨false, 0, 0⟩ } ∧
    t.budget = { s.budget with window := ⟨true, 0, 4000 * s.setup.budgetWindow⟩ } ∧
    ∀ p, if s.unserved p = true ∨ (s.port p).train.consoleDisabled = true then
        (t.port p).train.state = .disabled ∧ (t.port p).train.holds = ⟨false, false, false⟩ ∧
          AttemptCleared (t.port p).train ∧ SettingsKept (s.port p).train (t.port p).train ∧
          CountsKept (s.port p).train (t.port p).train ∧ RestOfPortKept (s.port p) (t.port p)
      else TakesReEntry s.setup.wakeSettle (s.port p) (t.port p)

/-! ### Measurements and claims -/

/-- What a channel keeps of a measurement that has ended: all but the values of its entry, its stop outcome, its sequence number, its
working set and its two timers (R84, R85, Table 5-7, 5.9.1; assumption log 39). -/
def endedMeasurement (c : Channel) : Channel :=
  { c with meas := none, settle := ⟨false, 0, 0⟩, stop := none, sequence := none, shot := ⟨false, 0, 0⟩, working := none }

/-- After a failed busy check the partial sums are discarded too (R94). -/
def busyMeasurement (c : Channel) : Channel := { endedMeasurement c with sums := PerPair.const (PerPhase.const []) }

/-- After a stop CANCELLED or PORT_DISABLED the sums and results are discarded, and settled, position and shots launched stay (R96,
Table 5-7). -/
def stoppedMeasurement (c : Channel) : Channel := { busyMeasurement c with results := [] }

/-- After a giving back the position goes too, and shots launched is 0 (R98). -/
def givenBackMeasurement (c : Channel) : Channel := { stoppedMeasurement c with stage := .gap, launched := 0 }

/-- A channel as every pickup starts it: nothing of an earlier measurement, shots launched 0, sums, results and stop outcome empty
(R85; settled no and the stopped timers: R86 and assumption logs 38 and 39). -/
def clearedMeasurement (c : Channel) : Channel := { givenBackMeasurement c with settled := false }

/-- A channel c that has become d has ended its measurement as `drop` says; its phase and claim are said elsewhere (R84, R98). -/
def MeasurementOver (drop : Channel → Channel) (c d : Channel) : Prop := d = { drop c with phase := d.phase, claim := d.claim }

/-- The sent claim l of a channel is released as s becomes t: RELEASING with its RELEASE in the list, or ended at once under line
trouble (R99, R150, R158). That its timers are left as they are is the model's choice (assumption log 38). -/
def ClaimReleased (ch : ChannelId) (l : LocalClaim) (s t : State) : Prop :=
  if s.line.condition = .stuck ∨ s.line.listenIn.running = true then
    (t.chan ch).phase = .idle ∧ (t.chan ch).claim = none ∧ t.line = s.line
  else
    (t.chan ch).phase = .releasing ∧ (t.chan ch).claim = some { l with state := .releasing } ∧
      t.line = { s.line with
        list := insertFrame ⟨.release, [l.number, byteOf l.target.val], some ch, false⟩ s.line.list }

/-- The unsent claim of a channel ends without a RELEASE (R88, R158). -/
def ClaimDropped (ch : ChannelId) (s t : State) : Prop :=
  (t.chan ch).phase = .idle ∧ (t.chan ch).claim = none ∧
    t.line = { s.line with list := takeOut (fun f => f.isFor .claim ch) s.line.list }

/-- The channel's entry e for port p goes back to the queue with its fields, CHANNEL goes, AWAIT comes for an automatic entry, and
nothing else of ports, records, counters and events changes (R68, R22, R98). -/
def GivesBack (ch : ChannelId) (p : PortId) (e : Entry) (s t : State) : Prop :=
  t.queue = s.queue.map (fun x => if x.target = p then { x with holder := none } else x) ∧
    (∀ q, q ≠ p → t.port q = s.port q) ∧ RestOfPortKept (s.port p) (t.port p) ∧
    ((s.port p).train.state = .held → (s.port p).train.holds = ⟨true, false, false⟩ →
      if e.origin = .drop ∨ e.origin = .downshift then
        (t.port p).train = { (s.port p).train with holds := ⟨false, false, true⟩ }
      else TakesReEntry s.setup.wakeSettle (s.port p) (t.port p)) ∧
    MeasurementOver givenBackMeasurement (s.chan ch) (t.chan ch) ∧ t.chan (otherChannel ch) = s.chan (otherChannel ch) ∧
    t.summary = s.summary ∧ t.sequence = s.sequence ∧ t.budget = s.budget ∧ t.view = s.view ∧ t.sweep = s.sweep ∧
    t.counters = s.counters ∧ t.claimCounter = s.claimCounter ∧ t.station = s.station

/-- Channel ch ends its measurement as `drop` says, after what happened in w: a claim that has been sent is released, with a RELEASE in the
list but under line trouble, and an unsent one ends with its CLAIM taken out (R97, R99, R88, R150, R158, Table 5-6). That a
released claim's timers are left as they are is the model's choice (assumption log 38). -/
def ChannelFreed (drop : Channel → Channel) (ch : ChannelId) (w t : State) : Prop :=
  (∀ l, (w.chan ch).claim = some l → l.state ≠ .queued →
    (w.line.condition = .stuck ∨ w.line.listenIn.running = true →
      t = w.modChan ch (fun c => { drop c with phase := .idle, claim := none })) ∧
    (w.line.condition ≠ .stuck → w.line.listenIn.running = false →
      t = { w.modChan ch (fun c => { drop c with phase := .releasing, claim := some { l with state := .releasing } })
            with line := { w.line with
              list := insertFrame ⟨.release, [l.number, byteOf l.target.val], some ch, false⟩ w.line.list } })) ∧
  ((∀ l, (w.chan ch).claim = some l → l.state = .queued) →
    t = { w.modChan ch (fun c => { drop c with phase := .idle, claim := none })
          with line := { w.line with list := takeOut (fun f => f.isFor .claim ch) w.line.list } })

/-- A stop with outcome o takes effect at channel ch as s becomes t: the entry has its final outcome, or is given back with its
fields (R97, R98, R68, Table 5-6). -/
def StopTaken (ch : ChannelId) (o : StopOutcome) (s t : State) : Prop :=
  ∀ (m : Measurement) (e : Entry), (s.chan ch).meas = some m → heldEntry ch s = some e → e.target = m.port →
    (o = .cancelled → ChannelFreed stoppedMeasurement ch (finalOutcome m.port .cancelled s) t) ∧
    (o = .portDisabled → ChannelFreed stoppedMeasurement ch (finalOutcome m.port .portDisabled s) t) ∧
    (o = .preempted ∨ o = .withdrawn → GivesBack ch m.port e s t ∧
      ChannelFreed givenBackMeasurement ch { s with ports := t.ports, queue := t.queue } t)

/-- Line trouble acts on channel ch as s becomes t: a measurement whose claim is not yet ACTIVE is given back WITHDRAWN, and a burst
or a release goes on (R100, R101). -/
def TroubleTaken (ch : ChannelId) (s t : State) : Prop :=
  ((s.chan ch).phase = .idle ∨ (s.chan ch).phase = .bursting ∨ (s.chan ch).phase = .releasing → t = s) ∧
    ((s.chan ch).phase = .preparing ∨ (s.chan ch).phase = .claiming ∨ (s.chan ch).phase = .waitYield →
      StopTaken ch (mergeStop (s.chan ch).stop .withdrawn) s t)

/-- What DISABLE and RESET PORT do with the port's measurement, from the state u they leave the port in: nothing where none
stands, `waiting` for a waiting entry, a stop with an outcome for a held one (R79). -/
def EndsMatter (p : PortId) (s u waiting : State) (stop : StopOutcome) (answers : State → Prop) : Prop :=
  (waitingFor p s = none → (∀ ch m, (s.chan ch).meas = some m → m.port ≠ p) → answers u) ∧
    (waitingFor p s ≠ none → answers waiting) ∧
    ∀ ch m, waitingFor p s = none → (s.chan ch).meas = some m → m.port = p →
      (∀ n, (s.chan (otherChannel ch)).meas = some n → n.port ≠ p) → answers (stopChannel ch stop u)

/-- The sums of all four pairs after a capture of w ticks in a slot of its repetition: the digitized samples, 0 where the input ends,
join the phase 0, 2, 1 or 3 that the slot samples (R91, R92). -/
def CaptureAdded (w slot : Nat) (input : CaptureInput) (old new : PerPair (PerPhase (List Int))) : Prop :=
  ∀ (x : Pair) (c : List Int), c = (List.range w).map (fun i => max (-2048) (min 2047 ((input.get x).getD i 0))) →
    new.get x = (match slot with
      | 0 => { old.get x with k0 := List.zipWith (· + ·) (old.get x).k0 c }
      | 1 => { old.get x with k2 := List.zipWith (· + ·) (old.get x).k2 c }
      | 2 => { old.get x with k1 := List.zipWith (· + ·) (old.get x).k1 c }
      | _ => { old.get x with k3 := List.zipWith (· + ·) (old.get x).k3 c })

/-- A burst ends with a record r: the entry leaves the queue, the record and last attempt outcome are stored, pair health follows the
verdicts, DIAG_DONE is raised, the claim is released (R69, R94, R95, R99, R126, R127). -/
def BurstRecorded (ch : ChannelId) (p : PortId) (l : LocalClaim) (r : Record) (s t : State) : Prop :=
  t.queue = withoutTarget p s.queue ∧ (∀ q, q ≠ p → t.port q = s.port q) ∧
    (t.port p).front = (s.port p).front ∧ (t.port p).res = (s.port p).res ∧ (t.port p).watch = (s.port p).watch ∧
    (t.port p).store.record = some r ∧ (t.port p).store.drops = (s.port p).store.drops ∧
    (t.port p).store.attempt = some (match r.outcome with | .complete => .complete | .busyLine => .busyLine) ∧
    ((s.port p).train.state = .held → (s.port p).train.holds = ⟨true, false, false⟩ →
      TakesReEntry s.setup.wakeSettle
        { s.port p with
          train := { (s.port p).train with
            health := PerPair.zip healthAfter (r.pairs.map PairResult.verdict) (s.port p).train.health }
          store := (t.port p).store } (t.port p)) ∧
    t.summary = s.summary.add (.diagDone p) ∧
    MeasurementOver (match r.outcome with | .complete => endedMeasurement | .busyLine => busyMeasurement) (s.chan ch) (t.chan ch) ∧
    t.chan (otherChannel ch) = s.chan (otherChannel ch) ∧ ClaimReleased ch l (raise (.diagDone p) s) t

/-! ### Requests -/

/-- A request frame that ends now is taken and answered: the assembler has left WAIT_IDLE, the line is not STUCK, the station's
own frame is not on it, and fewer than 2 REPORT frames are in the list (R136, R142, R146, R149). -/
def RequestReady (s : State) : Prop :=
  s.line.assembler ≠ .waitIdle ∧ s.line.condition ≠ .stuck ∧ s.line.onLine = none ∧ countKind .report s.line.list < 2

/-- A frame that ends now is taken: as RequestReady, without the REPORT count. -/
def FrameReady (s : State) : Prop :=
  s.line.assembler ≠ .waitIdle ∧ s.line.condition ≠ .stuck ∧ s.line.onLine = none

/-- Byte i of a payload as the number it codes. -/
def codeAt (payload : List Byte) (i : Nat) : Nat := (payload.getD i 0).toNat

/-- Check 2 of R173 fails: fewer bytes than the kind needs, by sub-kind, query kind or setup item (Tables 10-1, 10-4 and 11-3); where
that is not a listed value, fewer than those up to the byte that names it. -/
def BytesMissing (payload : List Byte) : Prop :=
  payload = [] ∨
  ((codeAt payload 0 = 1 ∨ codeAt payload 0 = 2) ∧ payload.length < 6) ∨
  ((codeAt payload 0 = 3 ∨ codeAt payload 0 = 9) ∧ payload.length < 3) ∨
  (codeAt payload 0 = 4 ∧ (payload.length < 3 ∨ (codeAt payload 2 = 2 ∧ payload.length < 4) ∨
    (codeAt payload 2 = 3 ∧ payload.length < 5))) ∨
  (codeAt payload 0 = 5 ∧ (payload.length < 2 ∨ (codeAt payload 1 ∈ [3, 5, 6, 7] ∧ payload.length < 3) ∨
    (codeAt payload 1 ∈ [1, 2] ∧ payload.length < 4) ∨ (codeAt payload 1 = 4 ∧ payload.length < 5))) ∨
  (codeAt payload 0 = 6 ∧ (payload.length < 2 ∨ (codeAt payload 1 ≤ 27 ∧ payload.length < 3) ∨
    (codeAt payload 1 ∈ [5, 6, 8, 9, 25] ∧ payload.length < 4) ∨ (codeAt payload 1 ≤ 4 ∧ payload.length < 5)))

/-- Check 5 of R173 fails: a reach, TRAIN sub-kind, role preference, query kind, pair letter, setup item or RESET scope is not listed. -/
def CodeUnlisted (payload : List Byte) : Prop :=
  ((codeAt payload 0 = 1 ∨ codeAt payload 0 = 2) ∧ 2 < codeAt payload 3) ∨
  (codeAt payload 0 = 4 ∧ (5 < codeAt payload 2 ∨ (codeAt payload 2 = 3 ∧ 2 < codeAt payload 4))) ∨
  (codeAt payload 0 = 5 ∧ (7 < codeAt payload 1 ∨ (codeAt payload 1 = 4 ∧ 3 < codeAt payload 3))) ∨
  (codeAt payload 0 = 6 ∧ (27 < codeAt payload 1 ∨ (codeAt payload 1 = 19 ∧ 2 < codeAt payload 2))) ∨
  (codeAt payload 0 = 9 ∧ 1 < codeAt payload 1)

/-- Check 7 of R173 fails: a port operand beyond 11, but for the port of a CANCEL with the all flag and of a RESET STATION. -/
def PortBeyond (payload : List Byte) : Prop :=
  ((codeAt payload 0 = 1 ∨ codeAt payload 0 = 4) ∧ 11 < codeAt payload 1) ∨
  (codeAt payload 0 = 3 ∧ codeAt payload 2 % 2 = 0 ∧ 11 < codeAt payload 1) ∨
  (codeAt payload 0 = 5 ∧ codeAt payload 1 ∈ [1, 2, 3, 4, 5] ∧ 11 < codeAt payload 2) ∨
  (codeAt payload 0 = 6 ∧ codeAt payload 1 ∈ [1, 2, 3, 4, 5, 6] ∧ 11 < codeAt payload 2) ∨
  (codeAt payload 0 = 9 ∧ codeAt payload 1 = 0 ∧ 11 < codeAt payload 2)

/-- Check 8 of R173 fails: a page or index beyond those of its query (Table 10-4). -/
def PageBeyond (payload : List Byte) : Prop :=
  codeAt payload 0 = 5 ∧
    ((codeAt payload 1 = 1 ∧ 4 < codeAt payload 3) ∨ (codeAt payload 1 = 2 ∧ 1 < codeAt payload 3) ∨
      (codeAt payload 1 = 4 ∧ 5 < codeAt payload 4) ∨ (codeAt payload 1 = 6 ∧ 2 < codeAt payload 2) ∨
      (codeAt payload 1 = 7 ∧ 15 < codeAt payload 2))

/-- The checks of R173 in its order, each with what makes it fail and the refusal that answers it, check 4 as Table 10-3 gives it. -/
def checkRows (broadcast : Bool) (payload : List Byte) (st : Station) : List (Prop × Reason) :=
  [ (codeAt payload 0 = 0 ∨ 9 < codeAt payload 0, .badKind),
    (BytesMissing payload, .badKind),
    (broadcast = true ∧ codeAt payload 0 ≠ 3 ∧ codeAt payload 0 ≠ 7, .badKind),
    (codeAt payload 0 ∈ [1, 2] ∧ st.phase ≠ .run, .notRunning),
    (codeAt payload 0 = 6 ∧ st.phase ≠ .setup ∧ st.locked = true, .locked),
    (codeAt payload 0 ∈ [6, 7] ∧ st.phase ≠ .setup ∧ st.locked = false, .notSetup),
    (codeAt payload 0 = 8 ∧ st.phase ≠ .setup, .notSetup),
    (CodeUnlisted payload, .badKind),
    (codeAt payload 0 = 4 ∧ codeAt payload 2 = 2 ∧ codeAt payload 3 ≠ 1 ∧ codeAt payload 3 ≠ 2, .badGrade),
    (PortBeyond payload, .badPort),
    (PageBeyond payload, .badTarget) ]

/-- The payload of a request's frame, with whether it was sent to destination 15 (Tables 10-1 and 10-4); none for a command that is no
request. -/
def requestOf : Instr → Option (Bool × List Byte)
  | .measure via port pairs reach av intr => some (via.broadcast, [1, port, pairs, reach, av, intr] ++ via.extra)
  | .sweep via hi lo reach av period => some (via.broadcast, [2, hi, lo, reach, av, period] ++ via.extra)
  | .cancel via port other => some (via.broadcast, [3, port, byteOf (4 * other.toNat)] ++ via.extra)
  | .cancelAll via port other => some (via.broadcast, [3, port, byteOf (4 * other.toNat + 1)] ++ via.extra)
  | .cancelSweep via all port other =>
      some (via.broadcast, [3, port, byteOf (4 * other.toNat + (if all then 3 else 2))] ++ via.extra)
  | .restart via port => some (via.broadcast, [4, port, 0] ++ via.extra)
  | .restartFull via port => some (via.broadcast, [4, port, 1] ++ via.extra)
  | .force via port grade => some (via.broadcast, [4, port, 2, grade] ++ via.extra)
  | .offer via port grades pref => some (via.broadcast, [4, port, 3, grades, pref] ++ via.extra)
  | .enable via port => some (via.broadcast, [4, port, 4] ++ via.extra)
  | .disable via port => some (via.broadcast, [4, port, 5] ++ via.extra)
  | .querySummary via => some (via.broadcast, [5, 0] ++ via.extra)
  | .queryPort via port page => some (via.broadcast, [5, 1, port, page] ++ via.extra)
  | .queryCounters via port page => some (via.broadcast, [5, 2, port, page] ++ via.extra)
  | .queryDiagHead via port => some (via.broadcast, [5, 3, port] ++ via.extra)
  | .queryEcho via port pair index => some (via.broadcast, [5, 4, port, pair, index] ++ via.extra)
  | .queryLength via port => some (via.broadcast, [5, 5, port] ++ via.extra)
  | .queryStation via page => some (via.broadcast, [5, 6, page] ++ via.extra)
  | .queryClaimEntry via index => some (via.broadcast, [5, 7, index] ++ via.extra)
  | .setup via item operands => some (via.broadcast, [6, item] ++ operands ++ via.extra)
  | .setupSegmentEntry via index port hi lo => some (via.broadcast, [6, byteOf (1 + index.val), port, hi, lo] ++ via.extra)
  | .lock via => some (via.broadcast, [7] ++ via.extra)
  | .calibrate via => some (via.broadcast, [8] ++ via.extra)
  | .resetPort via port => some (via.broadcast, [9, 0, port] ++ via.extra)
  | .resetStation via port => some (via.broadcast, [9, 1, port] ++ via.extra)
  | .badKindRequest broadcast payload => some (broadcast, payload)
  | _ => none

/-- The line at the end bit of another's frame: one recessive bit time of idle, or none where the end bit that was read last is
dominant; the assembler READY with nothing of the frame left (R136). -/
def frameEnded (s : State) : State :=
  { s with line := { s.line with
      condition := .busy, idleCount := if endBitDominant s.line then 0 else 1
      dominantRun := if endBitDominant s.line then s.line.dominantRun else 0
      assembler := .ready, onLine := none, heard := [], check := 0, spacerFault := false, objecting := false } }

/-- The station has read its own frame's objection slot, after `run` dominant bits in a row: no frame on the line, the assembler
READY, and the end bit to come (R136, R142, R147). -/
def pastSlot (run : Nat) (s : State) : State :=
  { s with line := { s.line with
      condition := .busy, idleCount := 0, dominantRun := run
      assembler := .ready, onLine := none, heard := [], check := 0, spacerFault := false, objecting := false } }

/-- The station's own frame o leaves the line as s becomes t, but for the list (R147, R141, R143, Table 8-5): at its objection slot,
which reads recessive for a sent frame and dominant for a voided one, or at a bit from the spacer after byte 0 to the end of the
check byte that was sent recessive and reads dominant. The bit is the one read last or the next one. -/
def FrameLeaves (how : Departure) (o : OnLine) (s t : State) : Prop :=
  s.line.onLine = some o ∧
    match how with
    | .sent =>
        (s.line.heard.length + 1 = o.bits.length ∧ s.line.heard.getLast? = some true ∧ t = pastSlot s.line.dominantRun s) ∨
          (s.line.heard.length + 2 = o.bits.length ∧ t = pastSlot 0 s)
    | .voided =>
        ∃ u : State, t = { u with counters := { s.counters with voided := satCount s.counters.voided } } ∧
          ((s.line.heard.length + 1 = o.bits.length ∧ s.line.heard.getLast? = some false ∧ u = pastSlot s.line.dominantRun s) ∨
            (s.line.heard.length + 2 = o.bits.length ∧ u = pastSlot (min 65 (s.line.dominantRun + 1)) s))
    | .abandoned =>
        ∃ (read : Line) (n : Nat),
          (if s.line.heard.getLast? = some false ∧ o.bits[s.line.heard.length - 1]? = some true then
            read = s.line ∧ n = s.line.heard.length
          else read = readBit false s.line ∧ n = s.line.heard.length + 1) ∧
          10 ≤ n ∧ n ≤ 27 + 9 * payloadLength o.bits ∧ o.bits[n - 1]? = some true ∧
          t = { s with
            line := { read with onLine := none, assembler := .receiving, condition := .busy, idleCount := 0 }
            counters := { s.counters with transmitFaults := satCount s.counters.transmitFaults } }
    | .discarded => False

/-- The first frame of a test has left the transmit list. -/
def withoutFrame (test : Frame → Bool) (s : State) : State := { s with line.list := takeOut test s.line.list }

/-- Table 9-4: what a standing new claim, with its finding against the own claim l of channel ch, does there; nothing where the two
do not conflict or the own claim is not yet sent (R163, R165). -/
def strikes (ch : ChannelId) (l : LocalClaim) (apart : Bool) (f : Finding) (s : State) : State :=
  if apart = true ∨ l.state = .queued then s
  else if f = .knownYields ∧ (l.state = .holdoff ∨ l.state = .active) then stopChannel ch .preempted s
  else if f = .knownLoses ∧ l.state ≠ .releasing then stopChannel ch .withdrawn s
  else if f = .newYields ∧ l.state = .active then stopChannel ch .withdrawn s
  else s

/-- What a new claim of priority pr does to the unsent own claim l of channel ch, whether it loses or stands (R164). -/
def withdraws (ch : ChannelId) (l : LocalClaim) (apart : Bool) (pr : Priority) (s : State) : State :=
  if apart = false ∧ l.state = .queued ∧ ¬(l.priority = .urgent ∧ pr = .background) then stopChannel ch .withdrawn s else s

/-! ### What is due -/

/-- The interval that a running timer measures has fully elapsed (section 5.2). -/
def Elapsed (k : Timer) : Prop := k.running = true ∧ k.limit ≤ k.elapsed

/-- The bits of the own frame o on the line: a conflict at the bit read last, in byte 0 or from the spacer after it to the end of the
check byte, and the departure once the objection slot has been read (R140, R141, R147). -/
def ownFrameRows (o : OnLine) (l : Line) : List (Prop × Instr) :=
  [ (l.heard.getLast? = some false ∧ o.bits[l.heard.length - 1]? = some true ∧ 2 ≤ l.heard.length ∧ l.heard.length ≤ 9,
      .arbitrationLoss),
    (l.heard.getLast? = some false ∧ o.bits[l.heard.length - 1]? = some true ∧ 10 ≤ l.heard.length ∧
      l.heard.length ≤ 27 + 9 * payloadLength o.bits, .transmitFault) ] ++
  match departureCommand o.frame (if l.heard.getLast? = some false then .voided else .sent) with
  | some c => [(l.heard.length = o.bits.length - 1, c)]
  | none => []

/-- The bits of the line: 65 dominant bits in a row, the STUCK line's 11 recessive ones, a check to object to, and a frame heard whole
(R136, R142 to R144, R149, R151). -/
def lineRows (s : State) : List (Prop × Instr) :=
  [ (s.line.condition ≠ .stuck ∧ 65 ≤ s.line.dominantRun, .stuckEntry),
    (s.line.condition = .stuck ∧ s.line.idleCount = 11, .lineReturn),
    (FrameReady s ∧ s.line.assembler = .receiving ∧ s.line.objecting = false ∧ 18 ≤ s.line.heard.length ∧
      s.line.heard.length = 27 + 9 * payloadLength s.line.heard ∧
      (s.line.spacerFault = true ∨ s.line.check ≠ checkRead s.line.heard),
      .receiveCheckFailure (coveredRead s.line.heard) (checkRead s.line.heard) (spacersRead s.line.heard)),
    (FrameReady s ∧ 18 ≤ s.line.heard.length ∧ 29 + 9 * payloadLength s.line.heard ≤ s.line.heard.length,
      if s.line.heard[27 + 9 * payloadLength s.line.heard]? = some false then .discardedFrame (frameRead s.line.heard) true
      else frameCommand s.station.number (frameRead s.line.heard)) ] ++
  match s.line.onLine with
  | some o => ownFrameRows o s.line
  | none => []

/-- The timers of the station, its budget and its sweep, and the start of a waiting frame on the idle line (R80, R82, R72, R139, R151,
R184, R188). -/
def stationRows (s : State) : List (Prop × Instr) :=
  [ (s.station.phase = .listen ∧ Elapsed s.station.listen, .listenTimerExpiry),
    (s.station.phase = .setup ∧ Elapsed s.station.window, .setupWindowExpiry),
    (Elapsed s.line.listenIn, .returnListenInEnd),
    (s.line.list ≠ [] ∧ s.line.onLine = none ∧ s.line.assembler = .ready ∧ s.line.idleCount = 11 ∧ s.line.condition = .idle ∧
      s.line.listenIn.running = false ∧ s.station.phase ≠ .listen, .frameStart),
    (s.station.phase = .run ∧ Elapsed s.budget.window, .budgetWindowExpiry),
    (Elapsed s.budget.pace, .paceIntervalPassed),
    (s.sweep.status = .waitingPeriod ∧ Elapsed s.sweep.period, .sweepPeriodExpiry) ]

/-- A claim view entry's times (R160). -/
def viewRows (now : Nat) (v : ViewEntry) : List (Prop × Instr) :=
  [ (v.expiry ≤ now, .viewEntryExpiry v.station v.number),
    (v.active = false ∧ v.activeAt ≤ now, .viewEntryActive v.station v.number) ]

/-- The timers of a channel, and a result that the distance unit owes it (R86, R89, R90, R91, R95, R103). -/
def channelRows (s : State) (ch : ChannelId) : List (Prop × Instr) :=
  [ ((s.chan ch).phase = .preparing ∧ Elapsed (s.chan ch).settle, .channelSettleExpiry ch),
    ((s.chan ch).phase = .claiming ∧ (∃ l, (s.chan ch).claim = some l ∧ l.state = .holdoff ∧ Elapsed l.holdoff), .holdoffEnd ch),
    ((s.chan ch).phase = .waitYield ∧ (∃ l, (s.chan ch).claim = some l ∧ Elapsed l.yieldTimer), .yieldLimit ch),
    ((s.chan ch).phase = .bursting ∧ (s.chan ch).working ≠ none, .pairResultReturn ch),
    ((s.chan ch).phase = .bursting ∧ (s.chan ch).stage = .gap ∧ 4 ≤ (s.chan ch).shot.elapsed ∧ (s.chan ch).meas ≠ none ∧
      heldEntry ch s ≠ none, .launchTrigger ch),
    ((s.chan ch).phase = .bursting ∧ (s.chan ch).stage = .recovery ∧
      (∃ m, (s.chan ch).meas = some m ∧ m.planned ≤ (s.chan ch).launched) ∧ Elapsed (s.chan ch).shot, .burstEnd ch) ]

/-- The timers of a port (Tables 1-4 and 3-2; R30, R32, R33). -/
def portRows (p : PortId) (pt : Port) : List (Prop × Instr) :=
  [ (pt.train.state = .dormant ∧ pt.front.energy = true ∧ Elapsed pt.timers.wake, .energyWake p),
    (pt.train.state = .settling ∧ Elapsed pt.timers.settle, .settleExpiry p),
    (pt.train.state = .offering ∧ Elapsed pt.timers.pageRepeat, .offerPageSend p),
    (pt.train.state = .offering ∧ pt.train.pageHeard = false ∧ Elapsed pt.timers.alternation, .crossoverAlternation p),
    (pt.train.state = .offering ∧ pt.train.pageHeard = false ∧ Elapsed pt.timers.legacy, .legacyDetection p),
    (pt.train.state = .offering ∧ Elapsed pt.timers.offering, .offeringLimit p),
    (pt.train.state = .resolving ∧ pt.res.listening = false ∧ Elapsed pt.timers.patternRepeat, .identificationSend p),
    (pt.train.state = .resolving ∧ pt.res.listening = false ∧ pt.res.probing = true ∧ pt.train.shadowed = false ∧
      Elapsed pt.timers.probeRepeat, .probeLaunch p),
    (pt.train.state = .resolving ∧ pt.res.listening = false ∧ pt.res.identified = false ∧ Elapsed pt.timers.identify,
      .identificationLimit p),
    (pt.train.state = .resolving ∧ pt.res.listening = true ∧ Elapsed pt.timers.qualifyA, .pairQualifies p .A),
    (pt.train.state = .resolving ∧ pt.res.listening = true ∧ Elapsed pt.timers.qualifyB, .pairQualifies p .B),
    (pt.train.state = .resolving ∧ pt.res.listening = true ∧ Elapsed pt.timers.identify, .crossingListenLimit p),
    (pt.train.state = .resolving ∧ Elapsed pt.timers.resolving, .resolvingLimit p),
    (pt.train.state = .qualifying ∧ pt.train.shadowed = false ∧ Elapsed pt.train.errorFree, .errorFreeTarget p),
    (pt.train.state = .qualifying ∧ Elapsed pt.timers.qualifying, .qualifyingLimit p),
    (pt.train.state = .backoff ∧ Elapsed pt.timers.backoff, .backoffExpiry p),
    (pt.train.state = .up ∧ pt.watch.condition = .counting ∧ Elapsed pt.watch.window, .windowExpiry p),
    (pt.train.state = .up ∧ Elapsed pt.watch.silence, .silence p),
    (Elapsed pt.watch.dropSettle, .dropSettleExpiry p) ]

/-- Every event that time or the line's bits can bring, each with the condition that makes it due, in the order of assumption log 1:
line, station, claim view, channels, ports. -/
def dueRows (s : State) : List (Prop × Instr) :=
  lineRows s ++ stationRows s ++ s.view.flatMap (viewRows s.now) ++ channelRows s 0 ++ channelRows s 1 ++
    allPorts.flatMap (fun p => portRows p (s.port p))

/-! ### Invariants -/

/-- The request queue (R62): at most 16 entries, no two of one target, in queue order. -/
def QueueOk (q : List Entry) : Prop :=
  q.length ≤ 16 ∧ q.Pairwise (fun e f => e.target ≠ f.target) ∧ q.Pairwise (fun e f => entryBefore f e = false)

/-- The claim view (R159): at most 16 entries, no two with the same claiming station and claim number. -/
def ViewOk (v : List ViewEntry) : Prop :=
  v.length ≤ 16 ∧ v.Pairwise (fun a b => ¬(a.station = b.station ∧ a.number = b.number))

/-- One port's hold reasons (R20, R5): HELD exactly when the set is non-empty, SETTLE exactly while the drop settle runs, and
OFFLINE in any phase but RUN. -/
def PortHoldOk (phase : StationPhase) (pt : Port) : Prop :=
  (pt.train.state = .held ↔ pt.train.holds ≠ HoldReasons.empty) ∧
    (pt.watch.dropSettle.running = pt.train.holds.settle) ∧ (phase ≠ .run → pt.train.state = .offline)

def HoldsOk (s : State) : Prop := ∀ p : PortId, PortHoldOk s.station.phase (s.port p)

/-- The transmit list (R145, R137): in list order, at most 2 REPORT frames and 1 ALERT, no payload beyond 15 bytes there or on the
line. -/
def ListOk (l : Line) : Prop :=
  l.list.Pairwise (fun f g => frameKindCode f.kind ≤ frameKindCode g.kind) ∧ countKind .report l.list ≤ 2 ∧
    countKind .alert l.list ≤ 1 ∧ (∀ f ∈ l.list, f.payload.length ≤ 15) ∧ ∀ o, l.onLine = some o → o.frame.payload.length ≤ 15

/-- How many frames of a kind for a channel the list holds. -/
def countFor (k : FrameKind) (ch : ChannelId) (l : List Frame) : Nat := (l.filter (fun f => f.isFor k ch)).length

/-- The transmit list of the station (R145, R158, R147): at most 8 frames within the limit of each kind, each channel's CLAIM only
while its claim is QUEUED and its RELEASE only while it is RELEASING, a frame on the line one of the list, and none there while the
line is STUCK or the return listen-in runs. -/
structure FramesOk (s : State) : Prop where
  list : ListOk s.line
  total : s.line.list.length ≤ 8
  rejoin : countKind .rejoin s.line.list ≤ 1
  release : countKind .release s.line.list ≤ 2
  claim : countKind .claim s.line.list ≤ 2
  channel : ∀ f ∈ s.line.list, (f.kind = .claim ∨ f.kind = .release) → f.channel ≠ none
  claims : ∀ ch, countFor .claim ch s.line.list ≤ 1 ∧
    (countFor .claim ch s.line.list ≠ 0 →
      (s.chan ch).phase = .claiming ∧ ∃ l, (s.chan ch).claim = some l ∧ l.state = .queued)
  releases : ∀ ch, countFor .release ch s.line.list ≤ 1 ∧
    (countFor .release ch s.line.list ≠ 0 → (s.chan ch).phase = .releasing)
  onLine : ∀ o, s.line.onLine = some o →
    o.frame ∈ s.line.list ∧ s.line.condition ≠ .stuck ∧ s.line.listenIn.running = false

/-- The two channels never hold measurements of conflicting targets (R75). -/
def TargetsApart (s : State) : Prop :=
  ∀ m n : Measurement, (s.chan 0).meas = some m → (s.chan 1).meas = some n →
    conflicts s.station.geometry m.target n.target = false

/-- One port's segment table (R104, R187): boundaries that do not decrease, each boundary and class in its range. -/
def TableOk (t : Vector Segment 4) : Prop :=
  t[0].boundary ≤ t[1].boundary ∧ t[1].boundary ≤ t[2].boundary ∧ t[2].boundary ≤ t[3].boundary ∧
    t[3].boundary ≤ 4095 ∧ ∀ i : Fin 4, t[i].cls ≤ 7

/-- The setup store holds every item in the range of Table 11-3, the watch window a multiple of 8 (R48, R187). -/
structure SetupOk (u : Setup) : Prop where
  delay : ∀ i : Fin 8, 3500 ≤ u.delay[i] ∧ u.delay[i] ≤ 7000
  tables : ∀ p : PortId, TableOk u.segments[p.val]
  alpha : u.alpha ≤ 63
  detect : 8 ≤ u.detect ∧ u.detect ≤ 1023
  busy : 8 ≤ u.busy ∧ u.busy ≤ 1023
  mismatch : 1 ≤ u.mismatch ∧ u.mismatch ≤ 47
  junctionLimit : 1 ≤ u.junctionLimit ∧ u.junctionLimit ≤ 47
  cross : 1 ≤ u.cross ∧ u.cross ≤ 63
  window : 8 ≤ u.window ∧ u.window ≤ 128 ∧ u.window % 8 = 0
  thresholdE : 1 ≤ u.thresholdE ∧ u.thresholdE ≤ 255
  thresholdI : 1 ≤ u.thresholdI ∧ u.thresholdI ≤ 255
  thresholdM : 1 ≤ u.thresholdM ∧ u.thresholdM ≤ 255
  dropSettle : u.dropSettle ≤ 4
  wakeSettle : u.wakeSettle ≤ 4
  downshiftAttempts : 1 ≤ u.downshiftAttempts ∧ u.downshiftAttempts ≤ 7
  skewLimit : 8 ≤ u.skewLimit ∧ u.skewLimit ≤ 255
  budgetWindow : 1 ≤ u.budgetWindow ∧ u.budgetWindow ≤ 255
  shotThreshold : 64 ≤ u.shotThreshold ∧ u.shotThreshold ≤ 65535
  paceTime : 1 ≤ u.paceTime ∧ u.paceTime ≤ 15
  paceInterval : 1 ≤ u.paceInterval ∧ u.paceInterval ≤ 255

end Sys2Proof.Machine
end

