-- ==== Sys2Proof/Laws/State.lean ====
section
/-! SUPPORT. The small lemmas of State and of its accessors: one per field and update, so that no later proof unfolds a record
update or the port and channel vectors. -/

namespace Sys2Proof.Machine

/-! ### Ports -/

theorem State.modPort_port (s : State) (p q : PortId) (f : Port → Port) :
    (s.modPort p f).port q = if p = q then f (s.port p) else s.port q := by
  simp only [State.modPort, State.port, Vector.getElem_set]
  by_cases h : p = q
  · simp [h]
  · have : ¬ p.val = q.val := fun e => h (Fin.ext e)
    simp [h, this]

@[simp] theorem State.modPort_port_self (s : State) (p : PortId) (f : Port → Port) :
    (s.modPort p f).port p = f (s.port p) := by simp [State.modPort_port]

theorem State.modPort_port_ne (s : State) (p q : PortId) (f : Port → Port) (h : p ≠ q) :
    (s.modPort p f).port q = s.port q := by simp [State.modPort_port, h]

@[simp] theorem State.modPort_modPort (s : State) (p : PortId) (f g : Port → Port) :
    (s.modPort p f).modPort p g = s.modPort p (fun x => g (f x)) := by
  simp [State.modPort, State.port]

/-- Two changes that agree on the port give one state. -/
theorem State.modPort_congr (s : State) (p : PortId) (f g : Port → Port) (h : f (s.port p) = g (s.port p)) :
    s.modPort p f = s.modPort p g := by simp [State.modPort, h]

@[simp] theorem State.modPort_id (s : State) (p : PortId) : s.modPort p (fun _ => s.port p) = s := by
  simp [State.modPort, State.port]

theorem SameButPort.modPort (s : State) (p : PortId) (f : Port → Port) : SameButPort p s (s.modPort p f) := by
  simp only [SameButPort, State.modPort_port_self]
  exact State.modPort_congr s p _ _ rfl

@[simp] theorem State.modPort_station (s : State) (p : PortId) (f : Port → Port) : (s.modPort p f).station = s.station := rfl
@[simp] theorem State.modPort_setup (s : State) (p : PortId) (f : Port → Port) : (s.modPort p f).setup = s.setup := rfl
@[simp] theorem State.modPort_queue (s : State) (p : PortId) (f : Port → Port) : (s.modPort p f).queue = s.queue := rfl
@[simp] theorem State.modPort_arrival (s : State) (p : PortId) (f : Port → Port) : (s.modPort p f).arrival = s.arrival := rfl
@[simp] theorem State.modPort_sweep (s : State) (p : PortId) (f : Port → Port) : (s.modPort p f).sweep = s.sweep := rfl
@[simp] theorem State.modPort_budget (s : State) (p : PortId) (f : Port → Port) : (s.modPort p f).budget = s.budget := rfl
@[simp] theorem State.modPort_channels (s : State) (p : PortId) (f : Port → Port) :
    (s.modPort p f).channels = s.channels := rfl
@[simp] theorem State.modPort_claimCounter (s : State) (p : PortId) (f : Port → Port) :
    (s.modPort p f).claimCounter = s.claimCounter := rfl
@[simp] theorem State.modPort_view (s : State) (p : PortId) (f : Port → Port) : (s.modPort p f).view = s.view := rfl
@[simp] theorem State.modPort_unknownReleases (s : State) (p : PortId) (f : Port → Port) :
    (s.modPort p f).unknownReleases = s.unknownReleases := rfl
@[simp] theorem State.modPort_line (s : State) (p : PortId) (f : Port → Port) : (s.modPort p f).line = s.line := rfl
@[simp] theorem State.modPort_counters (s : State) (p : PortId) (f : Port → Port) : (s.modPort p f).counters = s.counters := rfl
@[simp] theorem State.modPort_sequence (s : State) (p : PortId) (f : Port → Port) : (s.modPort p f).sequence = s.sequence := rfl
@[simp] theorem State.modPort_summary (s : State) (p : PortId) (f : Port → Port) : (s.modPort p f).summary = s.summary := rfl
@[simp] theorem State.modPort_now (s : State) (p : PortId) (f : Port → Port) : (s.modPort p f).now = s.now := rfl
@[simp] theorem State.modPort_draws (s : State) (p : PortId) (f : Port → Port) : (s.modPort p f).draws = s.draws := rfl
@[simp] theorem State.modPort_pending (s : State) (p : PortId) (f : Port → Port) : (s.modPort p f).pending = s.pending := rfl
@[simp] theorem State.modPort_wire (s : State) (p : PortId) (f : Port → Port) : (s.modPort p f).wire = s.wire := rfl
@[simp] theorem State.modPort_chan (s : State) (p : PortId) (f : Port → Port) (ch : ChannelId) :
    (s.modPort p f).chan ch = s.chan ch := rfl

@[simp] theorem State.mapPorts_port (s : State) (f : PortId → Port → Port) (p : PortId) :
    (s.mapPorts f).port p = f p (s.port p) := by
  fin_cases p <;> rfl

@[simp] theorem State.mapPorts_station (s : State) (f : PortId → Port → Port) : (s.mapPorts f).station = s.station := rfl
@[simp] theorem State.mapPorts_setup (s : State) (f : PortId → Port → Port) : (s.mapPorts f).setup = s.setup := rfl
@[simp] theorem State.mapPorts_queue (s : State) (f : PortId → Port → Port) : (s.mapPorts f).queue = s.queue := rfl
@[simp] theorem State.mapPorts_sweep (s : State) (f : PortId → Port → Port) : (s.mapPorts f).sweep = s.sweep := rfl
@[simp] theorem State.mapPorts_budget (s : State) (f : PortId → Port → Port) : (s.mapPorts f).budget = s.budget := rfl
@[simp] theorem State.mapPorts_channels (s : State) (f : PortId → Port → Port) : (s.mapPorts f).channels = s.channels := rfl
@[simp] theorem State.mapPorts_view (s : State) (f : PortId → Port → Port) : (s.mapPorts f).view = s.view := rfl
@[simp] theorem State.mapPorts_line (s : State) (f : PortId → Port → Port) : (s.mapPorts f).line = s.line := rfl
@[simp] theorem State.mapPorts_counters (s : State) (f : PortId → Port → Port) : (s.mapPorts f).counters = s.counters := rfl
@[simp] theorem State.mapPorts_summary (s : State) (f : PortId → Port → Port) : (s.mapPorts f).summary = s.summary := rfl
@[simp] theorem State.mapPorts_now (s : State) (f : PortId → Port → Port) : (s.mapPorts f).now = s.now := rfl
@[simp] theorem State.mapPorts_pending (s : State) (f : PortId → Port → Port) : (s.mapPorts f).pending = s.pending := rfl
@[simp] theorem State.mapPorts_wire (s : State) (f : PortId → Port → Port) : (s.mapPorts f).wire = s.wire := rfl
@[simp] theorem State.mapPorts_draws (s : State) (f : PortId → Port → Port) : (s.mapPorts f).draws = s.draws := rfl
@[simp] theorem State.mapPorts_arrival (s : State) (f : PortId → Port → Port) : (s.mapPorts f).arrival = s.arrival := rfl
@[simp] theorem State.mapPorts_sequence (s : State) (f : PortId → Port → Port) : (s.mapPorts f).sequence = s.sequence := rfl
@[simp] theorem State.mapPorts_claimCounter (s : State) (f : PortId → Port → Port) :
    (s.mapPorts f).claimCounter = s.claimCounter := rfl
@[simp] theorem State.mapPorts_unknownReleases (s : State) (f : PortId → Port → Port) :
    (s.mapPorts f).unknownReleases = s.unknownReleases := rfl
@[simp] theorem State.mapPorts_chan (s : State) (f : PortId → Port → Port) (ch : ChannelId) :
    (s.mapPorts f).chan ch = s.chan ch := rfl

/-! ### Guards -/

theorem onPort_pos {p : PortId} {test : Port → Bool} {f : State → State} {s : State} (h : test (s.port p) = true) :
    onPort p test f s = f s := by simp [onPort, h]
theorem onPort_neg {p : PortId} {test : Port → Bool} {f : State → State} {s : State} (h : test (s.port p) = false) :
    onPort p test f s = s := by simp [onPort, h]
theorem onChan_pos {ch : ChannelId} {test : Channel → Bool} {f : State → State} {s : State} (h : test (s.chan ch) = true) :
    onChan ch test f s = f s := by simp [onChan, h]
theorem onChan_neg {ch : ChannelId} {test : Channel → Bool} {f : State → State} {s : State} (h : test (s.chan ch) = false) :
    onChan ch test f s = s := by simp [onChan, h]

/-! ### Channels -/

theorem State.modChan_chan (s : State) (c d : ChannelId) (f : Channel → Channel) :
    (s.modChan c f).chan d = if c = d then f (s.chan c) else s.chan d := by
  simp only [State.modChan, State.chan, Vector.getElem_set]
  by_cases h : c = d
  · simp [h]
  · have : ¬ c.val = d.val := fun e => h (Fin.ext e)
    simp [h, this]

@[simp] theorem State.modChan_chan_self (s : State) (c : ChannelId) (f : Channel → Channel) :
    (s.modChan c f).chan c = f (s.chan c) := by simp [State.modChan_chan]

theorem State.modChan_chan_ne (s : State) (c d : ChannelId) (f : Channel → Channel) (h : c ≠ d) :
    (s.modChan c f).chan d = s.chan d := by simp [State.modChan_chan, h]

@[simp] theorem State.modChan_station (s : State) (c : ChannelId) (f : Channel → Channel) :
    (s.modChan c f).station = s.station := rfl
@[simp] theorem State.modChan_setup (s : State) (c : ChannelId) (f : Channel → Channel) : (s.modChan c f).setup = s.setup := rfl
@[simp] theorem State.modChan_ports (s : State) (c : ChannelId) (f : Channel → Channel) : (s.modChan c f).ports = s.ports := rfl
@[simp] theorem State.modChan_port (s : State) (c : ChannelId) (f : Channel → Channel) (p : PortId) :
    (s.modChan c f).port p = s.port p := rfl
@[simp] theorem State.modChan_queue (s : State) (c : ChannelId) (f : Channel → Channel) : (s.modChan c f).queue = s.queue := rfl
@[simp] theorem State.modChan_sweep (s : State) (c : ChannelId) (f : Channel → Channel) : (s.modChan c f).sweep = s.sweep := rfl
@[simp] theorem State.modChan_budget (s : State) (c : ChannelId) (f : Channel → Channel) : (s.modChan c f).budget = s.budget := rfl
@[simp] theorem State.modChan_view (s : State) (c : ChannelId) (f : Channel → Channel) : (s.modChan c f).view = s.view := rfl
@[simp] theorem State.modChan_line (s : State) (c : ChannelId) (f : Channel → Channel) : (s.modChan c f).line = s.line := rfl
@[simp] theorem State.modChan_counters (s : State) (c : ChannelId) (f : Channel → Channel) :
    (s.modChan c f).counters = s.counters := rfl
@[simp] theorem State.modChan_summary (s : State) (c : ChannelId) (f : Channel → Channel) :
    (s.modChan c f).summary = s.summary := rfl
@[simp] theorem State.modChan_now (s : State) (c : ChannelId) (f : Channel → Channel) : (s.modChan c f).now = s.now := rfl
@[simp] theorem State.modChan_pending (s : State) (c : ChannelId) (f : Channel → Channel) :
    (s.modChan c f).pending = s.pending := rfl
@[simp] theorem State.modChan_wire (s : State) (c : ChannelId) (f : Channel → Channel) : (s.modChan c f).wire = s.wire := rfl
@[simp] theorem State.modChan_unknownReleases (s : State) (c : ChannelId) (f : Channel → Channel) :
    (s.modChan c f).unknownReleases = s.unknownReleases := rfl

/-! ### The event summary -/

theorem PortSet.has_insert (v : PortSet) (p q : PortId) : (v.insert q).has p = (decide (q = p) || v.has p) := by
  simp only [PortSet.has, PortSet.insert]
  by_cases h : q = p
  · subst h; simp
  · rw [Vector.getElem_set_ne _ _ (fun hh => h (Fin.ext hh))]; simp [h]

/-- What the summary holds once an event has joined it (R131). -/
theorem Summary.has_add (m : Summary) (e x : Event) : (m.add e).has x = (decide (x = e) || m.has x) := by
  cases e <;> cases x <;> simp [Summary.add, Summary.has, PortSet.has_insert, eq_comm]

@[simp] theorem PortSet.none_has (p : PortId) : PortSet.none.has p = false := by
  revert p; decide

@[simp] theorem Summary.empty_has (x : Event) : Summary.empty.has x = false := by
  cases x <;> simp [Summary.has, Summary.empty]

/-- A summary that holds no event is empty. -/
theorem Summary.eq_empty {m : Summary} (h : ∀ e, m.has e = false) : m = Summary.empty := by
  have hs : ∀ v : PortSet, (∀ p, v.has p = false) → v = PortSet.none := fun v hv => by
    ext i hi
    have h1 : v[i] = false := hv ⟨i, hi⟩
    have h2 : PortSet.none[i] = false := PortSet.none_has ⟨i, hi⟩
    rw [h1, h2]
  obtain ⟨a, b, c, d, f, g, i, j, k, l⟩ := m
  simp only [Summary.empty, Summary.mk.injEq]
  exact ⟨hs a fun p => h (.linkUp p), hs b fun p => h (.linkDown p), hs c fun p => h (.diagDone p), hs d fun p => h (.downshift p),
    hs f fun p => h (.trainFailed p), h .calFault, h .selfLocked, h .duplicateStation, h .lineStuck, h .requestOverrun⟩

/-! ### Frames placed and events raised -/

@[simp] theorem placeFrame_port (f : Frame) (s : State) (p : PortId) : (placeFrame f s).port p = s.port p := rfl
@[simp] theorem placeFrame_chan (f : Frame) (s : State) (ch : ChannelId) : (placeFrame f s).chan ch = s.chan ch := rfl
@[simp] theorem placeFrame_queue (f : Frame) (s : State) : (placeFrame f s).queue = s.queue := rfl
@[simp] theorem placeFrame_list (f : Frame) (s : State) : (placeFrame f s).line.list = insertFrame f s.line.list := rfl
@[simp] theorem placeFrame_sweep (f : Frame) (s : State) : (placeFrame f s).sweep = s.sweep := rfl
@[simp] theorem placeFrame_station (f : Frame) (s : State) : (placeFrame f s).station = s.station := rfl
@[simp] theorem placeFrame_setup (f : Frame) (s : State) : (placeFrame f s).setup = s.setup := rfl
@[simp] theorem placeFrame_view (f : Frame) (s : State) : (placeFrame f s).view = s.view := rfl
@[simp] theorem placeFrame_summary (f : Frame) (s : State) : (placeFrame f s).summary = s.summary := rfl

@[simp] theorem raise_port (e : Event) (s : State) (p : PortId) : (raise e s).port p = s.port p := by
  simp only [raise]; split <;> rfl
@[simp] theorem raise_chan (e : Event) (s : State) (ch : ChannelId) : (raise e s).chan ch = s.chan ch := by
  simp only [raise]; split <;> rfl
@[simp] theorem raise_queue (e : Event) (s : State) : (raise e s).queue = s.queue := by
  simp only [raise]; split <;> rfl
@[simp] theorem raise_sweep (e : Event) (s : State) : (raise e s).sweep = s.sweep := by
  simp only [raise]; split <;> rfl
@[simp] theorem raise_station (e : Event) (s : State) : (raise e s).station = s.station := by
  simp only [raise]; split <;> rfl
@[simp] theorem raise_setup (e : Event) (s : State) : (raise e s).setup = s.setup := by
  simp only [raise]; split <;> rfl
@[simp] theorem raise_view (e : Event) (s : State) : (raise e s).view = s.view := by
  simp only [raise]; split <;> rfl
@[simp] theorem raise_summary (e : Event) (s : State) : (raise e s).summary = s.summary.add e := by
  simp only [raise]; split <;> rfl

@[simp] theorem raise_arrival (e : Event) (s : State) : (raise e s).arrival = s.arrival := by
  simp only [raise]; split <;> rfl
@[simp] theorem raise_budget (e : Event) (s : State) : (raise e s).budget = s.budget := by
  simp only [raise]; split <;> rfl
@[simp] theorem raise_claimCounter (e : Event) (s : State) : (raise e s).claimCounter = s.claimCounter := by
  simp only [raise]; split <;> rfl
@[simp] theorem raise_counters (e : Event) (s : State) : (raise e s).counters = s.counters := by
  simp only [raise]; split <;> rfl
@[simp] theorem raise_sequence (e : Event) (s : State) : (raise e s).sequence = s.sequence := by
  simp only [raise]; split <;> rfl
@[simp] theorem raise_now (e : Event) (s : State) : (raise e s).now = s.now := by
  simp only [raise]; split <;> rfl
@[simp] theorem raise_draws (e : Event) (s : State) : (raise e s).draws = s.draws := by
  simp only [raise]; split <;> rfl
@[simp] theorem raise_pending (e : Event) (s : State) : (raise e s).pending = s.pending := by
  simp only [raise]; split <;> rfl
@[simp] theorem raise_wire (e : Event) (s : State) : (raise e s).wire = s.wire := by
  simp only [raise]; split <;> rfl
@[simp] theorem raise_unknownReleases (e : Event) (s : State) : (raise e s).unknownReleases = s.unknownReleases := by
  simp only [raise]; split <;> rfl
@[simp] theorem raise_channels (e : Event) (s : State) : (raise e s).channels = s.channels := by
  simp only [raise]; split <;> rfl

/-! ### Frames -/

theorem OnlyPortAndEvents.modPort (p : PortId) (f : Port → Port) (s : State) : OnlyPortAndEvents p s (s.modPort p f) := by
  have h := SameButPort.modPort s p f
  simp only [SameButPort] at h
  refine ⟨?_, fun _ h => h, ?_⟩
  · conv_lhs => rw [h]
    rfl
  · rw [if_neg (fun hc => hc.2.1 hc.1)]; rfl

/-- A raised event: it joins the summary, and one ALERT is placed when the summary was empty and none waits (R131, R132). -/
theorem raise_eq (e : Event) (s : State) :
    raise e s = { s with
      summary := s.summary.add e
      line := { s.line with list :=
        if s.summary = Summary.empty ∧ countKind .alert s.line.list = 0 then insertFrame ⟨.alert, [], none, false⟩ s.line.list
        else s.line.list } } := by
  simp only [raise]; split <;> rfl

theorem OnlyPortAndEvents.raise (p : PortId) (e : Event) (s : State) : OnlyPortAndEvents p s (raise e s) := by
  have hne : s.summary.add e ≠ Summary.empty := fun h => by
    have := Summary.has_add s.summary e e
    rw [h, Summary.empty_has] at this
    simp at this
  refine ⟨?_, fun x hx => ?_, ?_⟩
  · simp only [raise_port, State.modPort_id]
    rw [raise_eq]
  · rw [raise_summary, Summary.has_add, hx, Bool.or_true]
  · rw [raise_eq]
    simp [hne]

theorem OnlyPortAndEvents.refl (p : PortId) (s : State) : OnlyPortAndEvents p s s :=
  ⟨by simp only [State.modPort_id], fun _ h => h, by rw [if_neg (fun hc => hc.2.1 hc.1)]⟩

theorem OnlyPortAndEvents.trans {p : PortId} {s t u : State} (h : OnlyPortAndEvents p s t) (g : OnlyPortAndEvents p t u) :
    OnlyPortAndEvents p s u := by
  refine ⟨?_, fun e he => g.kept e (h.kept e he), ?_⟩
  · have h1 := h.rest
    have g1 := g.rest
    rw [g1, h1]
    simp [State.modPort, State.port]
  · have mono : ∀ {a b : State}, (∀ e, a.summary.has e = true → b.summary.has e = true) →
        b.summary = Summary.empty → a.summary = Summary.empty := fun k hb => by
      refine Summary.eq_empty (fun e => ?_)
      by_contra hc
      have := k e (by simpa using hc)
      rw [hb, Summary.empty_has] at this
      cases this
    rw [g.alert]
    by_cases hs : s.summary = Summary.empty
    · by_cases ht : t.summary = Summary.empty
      · have hl : t.line.list = s.line.list := by rw [h.alert, if_neg (fun hc => hc.2.1 ht)]
        rw [hl]; simp [hs, ht]
      · have hu : u.summary ≠ Summary.empty := fun hu => ht (mono g.kept hu)
        rw [if_neg (fun hc => ht hc.1), h.alert]; simp [hs, ht, hu]
    · have ht : t.summary ≠ Summary.empty := fun ht => hs (mono h.kept ht)
      rw [if_neg (fun hc => ht hc.1), h.alert, if_neg (fun hc => hs hc.1), if_neg (fun hc => hs hc.1)]

theorem otherChannel_ne (ch : ChannelId) : ch ≠ otherChannel ch := by revert ch; decide

end Sys2Proof.Machine
end

