-- ==== Sys2Proof/Laws/Frames.lean ====
section
/-! SUPPORT. What each shared operation leaves unchanged, once for each: the station controller, the setup store, the claim view,
the unknown release count, the station counters, the clock, the waiting commands and the levels to come on STL (`KeepsRest`). -/

namespace Sys2Proof.Machine

theorem KeepsRest.refl (s : State) : KeepsRest s s := ⟨rfl, rfl, rfl, rfl, rfl, rfl, rfl, rfl⟩

theorem KeepsRest.trans {s t u : State} (h : KeepsRest s t) (g : KeepsRest t u) : KeepsRest s u :=
  ⟨g.station.trans h.station, g.setup.trans h.setup, g.view.trans h.view, g.unknownReleases.trans h.unknownReleases,
    g.counters.trans h.counters, g.now.trans h.now, g.pending.trans h.pending, g.wire.trans h.wire⟩

theorem modPort_keeps (p : PortId) (f : Port → Port) (s : State) : KeepsRest s (s.modPort p f) :=
  ⟨rfl, rfl, rfl, rfl, rfl, rfl, rfl, rfl⟩
theorem mapPorts_keeps (f : PortId → Port → Port) (s : State) : KeepsRest s (s.mapPorts f) :=
  ⟨rfl, rfl, rfl, rfl, rfl, rfl, rfl, rfl⟩
theorem modChan_keeps (c : ChannelId) (f : Channel → Channel) (s : State) : KeepsRest s (s.modChan c f) :=
  ⟨rfl, rfl, rfl, rfl, rfl, rfl, rfl, rfl⟩
theorem placeFrame_keeps (f : Frame) (s : State) : KeepsRest s (placeFrame f s) := ⟨rfl, rfl, rfl, rfl, rfl, rfl, rfl, rfl⟩

theorem raise_keeps (e : Event) (s : State) : KeepsRest s (raise e s) := by
  simp only [raise]; split <;> exact ⟨rfl, rfl, rfl, rfl, rfl, rfl, rfl, rfl⟩

/-! ### Ports -/

theorem dropLink_keeps (p : PortId) (c : DropCause) (s : State) : KeepsRest s (dropLink p c s) :=
  (modPort_keeps p _ s).trans (raise_keeps _ _)
theorem reEnter_keeps (p : PortId) (s : State) : KeepsRest s (reEnter p s) := modPort_keeps _ _ _
theorem hold_keeps (p : PortId) (f : HoldReasons → HoldReasons) (s : State) : KeepsRest s (hold p f s) := modPort_keeps _ _ _
theorem unhold_keeps (p : PortId) (f : HoldReasons → HoldReasons) (s : State) : KeepsRest s (unhold p f s) :=
  modPort_keeps _ _ _
theorem startDropSettle_keeps (p : PortId) (s : State) : KeepsRest s (startDropSettle p s) :=
  (hold_keeps p _ s).trans (modPort_keeps _ _ _)
theorem stopDropSettle_keeps (p : PortId) (s : State) : KeepsRest s (stopDropSettle p s) := modPort_keeps _ _ _
theorem qualityDrop_keeps (p : PortId) (c : DropCause) (s : State) : KeepsRest s (qualityDrop p c s) := by
  simp only [qualityDrop]; split
  · exact (dropLink_keeps p c s).trans (startDropSettle_keeps p _)
  · exact (dropLink_keeps p c s).trans (reEnter_keeps p _)
theorem setDownshift_keeps (p : PortId) (s : State) : KeepsRest s (setDownshift p s) :=
  (modPort_keeps p _ s).trans (raise_keeps _ _)
theorem clearFourPair_keeps (p : PortId) (s : State) : KeepsRest s (clearFourPair p s) := modPort_keeps _ _ _
theorem secondDownshiftTest_keeps (p : PortId) (s : State) : KeepsRest s (secondDownshiftTest p s) := by
  simp only [secondDownshiftTest]; split
  · split
    · exact (modPort_keeps p _ s).trans (setDownshift_keeps p _)
    · exact (modPort_keeps p _ s).trans (clearFourPair_keeps p _)
  · exact KeepsRest.refl s
theorem takeOutcome_keeps (e : Entry) (o : FinalOutcome) (s : State) : KeepsRest s (takeOutcome e o s) :=
  (modPort_keeps _ _ s).trans (raise_keeps _ _)
theorem noteQueueFull_keeps (p : PortId) (s : State) : KeepsRest s (noteQueueFull p s) :=
  (modPort_keeps _ _ s).trans (raise_keeps _ _)

/-! ### Queue and sweep -/

theorem mergeInto_keeps (p : PortId) (r : MeasureRequest) (e : Entry) (s : State) : KeepsRest s (mergeInto p r e s) :=
  ⟨rfl, rfl, rfl, rfl, rfl, rfl, rfl, rfl⟩
theorem addEntry_keeps (p : PortId) (r : MeasureRequest) (s : State) : KeepsRest s (addEntry p r s) :=
  ⟨rfl, rfl, rfl, rfl, rfl, rfl, rfl, rfl⟩
theorem removeEntry_keeps (p : PortId) (s : State) : KeepsRest s (removeEntry p s) := ⟨rfl, rfl, rfl, rfl, rfl, rfl, rfl, rfl⟩
theorem setHolder_keeps (p : PortId) (h : Option ChannelId) (s : State) : KeepsRest s (setHolder p h s) :=
  ⟨rfl, rfl, rfl, rfl, rfl, rfl, rfl, rfl⟩
theorem endRound_keeps (f : SweepFields) (s : State) : KeepsRest s (endRound f s) := by
  simp only [endRound]; split <;> exact ⟨rfl, rfl, rfl, rfl, rfl, rfl, rfl, rfl⟩
theorem sweepOver_keeps (f : SweepFields) (ps : List PortId) (s : State) : KeepsRest s (sweepOver f ps s) := by
  induction ps generalizing s with
  | nil => exact endRound_keeps f s
  | cons p ps ih =>
    simp only [sweepOver]; split
    · exact (show KeepsRest s { s with sweep.cursor := some p } from ⟨rfl, rfl, rfl, rfl, rfl, rfl, rfl, rfl⟩).trans (ih _)
    · split
      · exact ⟨rfl, rfl, rfl, rfl, rfl, rfl, rfl, rfl⟩
      · split <;> exact ⟨rfl, rfl, rfl, rfl, rfl, rfl, rfl, rfl⟩
theorem sweepAdvance_keeps (s : State) : KeepsRest s (sweepAdvance s) := by
  simp only [sweepAdvance]; split
  · exact KeepsRest.refl s
  · exact sweepOver_keeps _ _ s
theorem sweepAfter_keeps (b : Bool) (s : State) : KeepsRest s (sweepAfter b s) := by
  simp only [sweepAfter]; split
  · exact sweepAdvance_keeps s
  · exact KeepsRest.refl s
theorem endSweep_keeps (s : State) : KeepsRest s (endSweep s) := ⟨rfl, rfl, rfl, rfl, rfl, rfl, rfl, rfl⟩
theorem retireSweep_keeps (s : State) : KeepsRest s (retireSweep s) := ⟨rfl, rfl, rfl, rfl, rfl, rfl, rfl, rfl⟩
theorem finalOutcome_keeps (p : PortId) (o : FinalOutcome) (s : State) : KeepsRest s (finalOutcome p o s) := by
  simp only [finalOutcome]; split
  · exact KeepsRest.refl s
  · exact (((removeEntry_keeps p s).trans (takeOutcome_keeps _ _ _)).trans (secondDownshiftTest_keeps p _)).trans
      ((unhold_keeps p _ _).trans (sweepAfter_keeps _ _))
theorem dropWaiting_keeps (p : PortId) (s : State) : KeepsRest s (dropWaiting p s) := by
  simp only [dropWaiting]; split
  · exact KeepsRest.refl s
  · exact (removeEntry_keeps p s).trans (sweepAfter_keeps _ _)
theorem autoRequest_keeps (p : PortId) (r : MeasureRequest) (s t : State) (h : autoRequest p r s = some t) :
    KeepsRest s t := by
  simp only [autoRequest] at h
  split at h
  · cases h; exact mergeInto_keeps _ _ _ _
  · split at h
    · cases h
    · split at h
      · cases h; exact addEntry_keeps _ _ _
      · split at h
        · cases h; exact ((removeEntry_keeps _ s).trans (addEntry_keeps _ _ _)).trans (sweepAfter_keeps _ _)
        · cases h

/-! ### Channels, claims and the arbiter -/

theorem enterClaiming_keeps (ch : ChannelId) (s : State) : KeepsRest s (enterClaiming ch s) := by
  simp only [enterClaiming]; split
  · exact ⟨rfl, rfl, rfl, rfl, rfl, rfl, rfl, rfl⟩
  · exact KeepsRest.refl s
theorem releaseClaim_keeps (ch : ChannelId) (s : State) : KeepsRest s (releaseClaim ch s) := by
  simp only [releaseClaim]; split
  · exact modChan_keeps _ _ _
  · split
    · exact modChan_keeps _ _ _
    · exact (modChan_keeps _ _ _).trans (placeFrame_keeps _ _)
theorem giveBack_keeps (ch : ChannelId) (s : State) : KeepsRest s (giveBack ch s) := by
  simp only [giveBack]; split
  · exact KeepsRest.refl s
  · exact (setHolder_keeps _ _ s).trans (unhold_keeps _ _ _)
theorem endWith_keeps (ch : ChannelId) (o : StopOutcome) (s : State) : KeepsRest s (endWith ch o s) := by
  simp only [endWith]
  refine KeepsRest.trans ?_ (modChan_keeps _ _ _)
  split
  · exact KeepsRest.refl s
  · cases o
    · exact finalOutcome_keeps _ _ _
    · exact finalOutcome_keeps _ _ _
    · exact giveBack_keeps _ _
    · exact giveBack_keeps _ _
theorem dropUnsentClaim_keeps (ch : ChannelId) (s : State) : KeepsRest s (dropUnsentClaim ch s) :=
  ⟨rfl, rfl, rfl, rfl, rfl, rfl, rfl, rfl⟩
theorem stopNow_keeps (ch : ChannelId) (o : StopOutcome) (s : State) : KeepsRest s (stopNow ch o s) := by
  simp only [stopNow]; split
  · exact (endWith_keeps ch o s).trans (releaseClaim_keeps ch _)
  · exact (endWith_keeps ch o s).trans (dropUnsentClaim_keeps ch _)
theorem stopChannel_keeps (ch : ChannelId) (o : StopOutcome) (s : State) : KeepsRest s (stopChannel ch o s) := by
  simp only [stopChannel]; split
  · exact KeepsRest.refl s
  · exact KeepsRest.refl s
  · exact stopNow_keeps _ _ _
  · split
    · exact modChan_keeps _ _ _
    · exact stopNow_keeps _ _ _
  · exact stopNow_keeps _ _ _
  · split
    · exact modChan_keeps _ _ _
    · exact stopNow_keeps _ _ _
theorem enterBursting_keeps (ch : ChannelId) (s : State) : KeepsRest s (enterBursting ch s) :=
  ⟨rfl, rfl, rfl, rfl, rfl, rfl, rfl, rfl⟩
theorem returnResult_keeps (ch : ChannelId) (s : State) : KeepsRest s (returnResult ch s) := by
  simp only [returnResult]; split
  · exact KeepsRest.refl s
  · exact modChan_keeps _ _ _
theorem finishBurst_keeps (ch : ChannelId) (o : FinalOutcome) (s : State) : KeepsRest s (finishBurst ch o s) := by
  simp only [finishBurst]; split
  · exact KeepsRest.refl s
  · exact ((finalOutcome_keeps _ _ s).trans (modChan_keeps _ _ _)).trans (releaseClaim_keeps ch _)
theorem pickup_keeps (ch : ChannelId) (e : Entry) (s : State) : KeepsRest s (pickup ch e s) := by
  have hs : KeepsRest s (startPickup ch e s) := (setHolder_keeps _ _ s).trans (modChan_keeps _ _ _)
  have hc : KeepsRest s (enterClaiming ch (beginMeasurement ch .claiming (measurementOf s e)
      (hold e.target addChannelHold (startPickup ch e s)))) :=
    (hs.trans (hold_keeps _ _ _)).trans ((modChan_keeps _ _ _).trans (enterClaiming_keeps _ _))
  simp only [pickup]; split
  · exact hs.trans (finalOutcome_keeps _ _ _)
  · split
    · exact (hs.trans (dropLink_keeps _ _ _)).trans
        ((hold_keeps _ _ _).trans ((modChan_keeps _ _ _).trans (modChan_keeps _ _ _)))
    · exact hs.trans (finalOutcome_keeps _ _ _)
  all_goals exact hc
theorem offerTo_keeps (ch : ChannelId) (s t : State) (h : offerTo ch s = some t) : KeepsRest s t := by
  simp only [offerTo] at h
  split at h
  · simp only [Option.map_eq_some_iff] at h
    obtain ⟨e, -, rfl⟩ := h
    exact pickup_keeps ch e s
  · cases h
theorem offers_keeps (n : Nat) (s : State) : KeepsRest s (offers n s) := by
  induction n generalizing s with
  | zero => exact KeepsRest.refl s
  | succ n ih =>
    simp only [offers]; split
    · next t h => exact (offerTo_keeps 1 s t h).trans (ih t)
    · split
      · next t h => exact (offerTo_keeps 0 s t h).trans (ih t)
      · exact KeepsRest.refl s
theorem moveReady_keeps (ready : State → ChannelId → Bool) (move : ChannelId → State → State)
    (hm : ∀ ch u, KeepsRest u (move ch u)) (s : State) : KeepsRest s (moveReady ready move s) := by
  have h0 : KeepsRest s { s with draws := s.draws + 1 } := ⟨rfl, rfl, rfl, rfl, rfl, rfl, rfl, rfl⟩
  simp only [moveReady]; split
  · split <;> exact (h0.trans (hm _ _)).trans (hm _ _)
  · split
    · exact hm _ _
    · split
      · exact hm _ _
      · exact KeepsRest.refl s
/-- What follows a change of claims, entries or channels leaves the rest unchanged. -/
theorem react_keeps (s : State) : KeepsRest s (react s) :=
  (((moveReady_keeps _ _ enterBursting_keeps s).trans (moveReady_keeps _ _ enterClaiming_keeps _)).trans
    (mapPorts_keeps _ _)).trans (offers_keeps _ _)

end Sys2Proof.Machine
end

