-- ==== Sys2Proof/Laws/Queue.lean ====
section
/-! SUPPORT. The request queue under each shared operation (R62): it keeps its capacity, its distinct targets and its order. -/

namespace Sys2Proof.Machine

/-- The operation from s to t keeps the queue sound. -/
def QueueKept (s t : State) : Prop := QueueOk s.queue → QueueOk t.queue

theorem QueueKept.refl (s : State) : QueueKept s s := id
theorem QueueKept.trans {s t u : State} (h : QueueKept s t) (g : QueueKept t u) : QueueKept s u := fun x => g (h x)
theorem QueueKept.of_eq {s t : State} (h : t.queue = s.queue) : QueueKept s t := by
  intro x; rw [h]; exact x

/-! ### Lists of entries -/

theorem entryBefore_asymm (e f : Entry) (h : entryBefore e f = true) : entryBefore f e = false := by
  simp only [entryBefore, Bool.or_eq_true, Bool.and_eq_true, decide_eq_true_eq, beq_iff_eq, Bool.or_eq_false_iff,
    Bool.and_eq_false_iff, decide_eq_false_iff_not, beq_eq_false_iff_ne] at *
  omega

/-- Not being before is transitive. -/
theorem notBefore_trans {e f g : Entry} (h : entryBefore f e = false) (k : entryBefore g f = false) :
    entryBefore g e = false := by
  simp only [entryBefore, Bool.or_eq_false_iff, Bool.and_eq_false_iff, decide_eq_false_iff_not, beq_eq_false_iff_ne] at *
  omega

theorem mem_insertEntry {e x : Entry} {q : List Entry} : x ∈ insertEntry e q ↔ x = e ∨ x ∈ q := by
  induction q with
  | nil => simp [insertEntry]
  | cons y ys ih =>
    simp only [insertEntry]
    split
    · simp
    · simp [ih]; tauto

theorem insertEntry_length (e : Entry) (q : List Entry) : (insertEntry e q).length = q.length + 1 := by
  induction q with
  | nil => rfl
  | cons x xs ih =>
    simp only [insertEntry]
    split
    · rfl
    · simp [ih]

theorem insertEntry_sorted (e : Entry) (q : List Entry) (h : q.Pairwise (fun a b => entryBefore b a = false)) :
    (insertEntry e q).Pairwise (fun a b => entryBefore b a = false) := by
  induction q with
  | nil => simp [insertEntry]
  | cons x xs ih =>
    obtain ⟨hx, hxs⟩ := List.pairwise_cons.mp h
    simp only [insertEntry]
    split
    · next hb =>
      refine List.pairwise_cons.mpr ⟨?_, h⟩
      intro a ha
      rcases List.mem_cons.mp ha with rfl | ha
      · exact entryBefore_asymm _ _ hb
      · exact notBefore_trans (entryBefore_asymm _ _ hb) (hx a ha)
    · next hb =>
      refine List.pairwise_cons.mpr ⟨?_, ih hxs⟩
      intro a ha
      rcases mem_insertEntry.mp ha with rfl | ha
      · simpa using hb
      · exact hx a ha

theorem insertEntry_distinct (e : Entry) (q : List Entry) (h : q.Pairwise (fun a b => a.target ≠ b.target))
    (he : ∀ x ∈ q, x.target ≠ e.target) : (insertEntry e q).Pairwise (fun a b => a.target ≠ b.target) := by
  induction q with
  | nil => simp [insertEntry]
  | cons x xs ih =>
    obtain ⟨hx, hxs⟩ := List.pairwise_cons.mp h
    simp only [insertEntry]
    split
    · refine List.pairwise_cons.mpr ⟨fun a ha => (he a ha).symm, h⟩
    · refine List.pairwise_cons.mpr ⟨?_, ih hxs (fun a ha => he a (List.mem_cons_of_mem _ ha))⟩
      intro a ha
      rcases mem_insertEntry.mp ha with rfl | ha
      · exact he x (List.mem_cons_self ..)
      · exact hx a ha

/-- Any part of a sound queue is sound. -/
theorem QueueOk.filter {q : List Entry} (h : QueueOk q) (f : Entry → Bool) : QueueOk (q.filter f) :=
  ⟨(List.length_filter_le _ _).trans h.1, h.2.1.filter _, h.2.2.filter _⟩

/-- Changing holders or tags keeps a queue sound. -/
theorem QueueOk.map {q : List Entry} (h : QueueOk q) (f : Entry → Entry)
    (hf : ∀ e, (f e).target = e.target ∧ (f e).priority = e.priority ∧ (f e).stamp = e.stamp) : QueueOk (q.map f) := by
  refine ⟨by simpa using h.1, ?_, ?_⟩
  · exact List.pairwise_map.mpr (h.2.1.imp (fun {a b} hab => by rw [(hf a).1, (hf b).1]; exact hab))
  · refine List.pairwise_map.mpr (h.2.2.imp (fun {a b} hab => ?_))
    simpa [entryBefore, (hf a).2.1, (hf b).2.1, (hf a).2.2, (hf b).2.2] using hab

theorem QueueOk.insert {q : List Entry} (h : QueueOk q) (e : Entry) (hl : q.length < 16)
    (he : ∀ x ∈ q, x.target ≠ e.target) : QueueOk (insertEntry e q) :=
  ⟨by rw [insertEntry_length]; omega, insertEntry_distinct e q h.2.1 he, insertEntry_sorted e q h.2.2⟩

theorem withoutTarget_spec (p : PortId) (q : List Entry) (x : Entry) : x ∈ withoutTarget p q ↔ x ∈ q ∧ x.target ≠ p := by
  simp [withoutTarget]

theorem withoutTarget_shorter {p : PortId} {q : List Entry} {e : Entry} (he : e ∈ q) (ht : e.target = p) :
    (withoutTarget p q).length < q.length := by
  rw [withoutTarget, ← List.countP_eq_length_filter]
  refine lt_of_le_of_ne List.countP_le_length (fun h => ?_)
  have := List.countP_eq_length.mp h e he
  simp [ht] at this

/-! ### The entry of a port -/

theorem waitingFor_some {p : PortId} {s : State} {e : Entry} (h : waitingFor p s = some e) :
    e ∈ s.queue ∧ e.target = p ∧ e.holder = none := by
  have h1 := List.mem_of_find?_eq_some h
  have h2 := List.find?_some h
  simp [Entry.waiting] at h2
  exact ⟨h1, h2.1, h2.2⟩

/-- A port without a waiting and without a held entry has none. -/
theorem no_entry {p : PortId} {s : State} (hw : waitingFor p s = none) (hh : heldFor p s = false) :
    ∀ x ∈ s.queue, x.target ≠ p := by
  intro x hx ht
  have h1 := List.find?_eq_none.mp hw x hx
  have h2 : (decide (x.target = p) && !x.waiting) = false := by
    have := List.any_eq_false.mp hh x hx
    simpa using this
  cases hwt : x.waiting <;> simp [ht, hwt] at h1 h2

/-! ### Operations that do not touch the queue -/

theorem modPort_queueKept (p : PortId) (f : Port → Port) (s : State) : QueueKept s (s.modPort p f) := QueueKept.of_eq rfl
theorem modChan_queueKept (c : ChannelId) (f : Channel → Channel) (s : State) : QueueKept s (s.modChan c f) := QueueKept.of_eq rfl
theorem mapPorts_queueKept (f : PortId → Port → Port) (s : State) : QueueKept s (s.mapPorts f) := QueueKept.of_eq rfl
theorem raise_queueKept (e : Event) (s : State) : QueueKept s (raise e s) := QueueKept.of_eq (raise_queue e s)
theorem placeFrame_queueKept (f : Frame) (s : State) : QueueKept s (placeFrame f s) := QueueKept.of_eq rfl

theorem dropLink_queue (p : PortId) (c : DropCause) (s : State) : (dropLink p c s).queue = s.queue := by
  simp [dropLink]
theorem qualityDrop_queue (p : PortId) (c : DropCause) (s : State) : (qualityDrop p c s).queue = s.queue := by
  simp only [qualityDrop]; split <;> simp [startDropSettle, hold, reEnter, dropLink_queue]
theorem setDownshift_queue (p : PortId) (s : State) : (setDownshift p s).queue = s.queue := by simp [setDownshift]
theorem secondDownshiftTest_queue (p : PortId) (s : State) : (secondDownshiftTest p s).queue = s.queue := by
  simp only [secondDownshiftTest]; split
  · split <;> simp [setDownshift_queue, clearFourPair]
  · rfl
theorem takeOutcome_queue (e : Entry) (o : FinalOutcome) (s : State) : (takeOutcome e o s).queue = s.queue := by
  simp [takeOutcome]
theorem noteQueueFull_queue (p : PortId) (s : State) : (noteQueueFull p s).queue = s.queue := by simp [noteQueueFull]

/-! ### Queue operations -/

theorem removeEntry_queueKept (p : PortId) (s : State) : QueueKept s (removeEntry p s) := fun h => h.filter _

theorem setHolder_queueKept (p : PortId) (o : Option ChannelId) (s : State) : QueueKept s (setHolder p o s) := by
  intro h
  refine h.map _ (fun e => ?_)
  split <;> exact ⟨rfl, rfl, rfl⟩

theorem mergeInto_queueKept (p : PortId) (r : MeasureRequest) (e : Entry) (s : State) (he : e ∈ s.queue)
    (ht : e.target = p) : QueueKept s (mergeInto p r e s) := by
  intro h
  refine (h.filter _).insert _ ?_ ?_
  · exact lt_of_lt_of_le (withoutTarget_shorter he ht) h.1
  · intro x hx
    rw [show (mergeEntry r e).target = p from ht]
    exact ((withoutTarget_spec p s.queue x).mp hx).2

theorem addEntry_queueKept (p : PortId) (r : MeasureRequest) (s : State) (hl : s.queue.length < queueCapacity)
    (hn : ∀ x ∈ s.queue, x.target ≠ p) : QueueKept s (addEntry p r s) :=
  fun h => h.insert _ hl hn

theorem endRound_queue (f : SweepFields) (s : State) : (endRound f s).queue = s.queue := by
  simp only [endRound]; split <;> rfl

theorem sweepOver_queueKept (f : SweepFields) (ps : List PortId) (s : State) : QueueKept s (sweepOver f ps s) := by
  induction ps generalizing s with
  | nil => exact QueueKept.of_eq (endRound_queue f s)
  | cons p ps ih =>
    simp only [sweepOver]; split
    · exact (show QueueKept s { s with sweep.cursor := some p } from QueueKept.of_eq rfl).trans (ih _)
    · next hh =>
      split
      · next e he =>
        have h := waitingFor_some he
        exact (show QueueKept s { s with sweep := { s.sweep with cursor := some p, status := .running } } from
          QueueKept.of_eq rfl).trans (mergeInto_queueKept p _ e _ h.1 h.2.1)
      · next hw =>
        split
        · next hl =>
          exact (show QueueKept s { s with sweep := { s.sweep with cursor := some p, status := .running } } from
            QueueKept.of_eq rfl).trans (addEntry_queueKept p _ _ hl (no_entry hw (by simpa [heldFor] using hh)))
        · exact QueueKept.of_eq rfl

theorem sweepAdvance_queueKept (s : State) : QueueKept s (sweepAdvance s) := by
  simp only [sweepAdvance]; split
  · exact QueueKept.refl s
  · exact sweepOver_queueKept _ _ s

theorem sweepAfter_queueKept (b : Bool) (s : State) : QueueKept s (sweepAfter b s) := by
  simp only [sweepAfter]; split
  · exact sweepAdvance_queueKept s
  · exact QueueKept.refl s

theorem endSweep_queueKept (s : State) : QueueKept s (endSweep s) := by
  intro h
  refine h.map _ (fun e => ?_)
  split <;> exact ⟨rfl, rfl, rfl⟩

theorem retireSweep_queueKept (s : State) : QueueKept s (retireSweep s) := by
  intro h
  refine (h.filter _).map _ (fun e => ?_)
  split <;> exact ⟨rfl, rfl, rfl⟩

theorem finalOutcome_queueKept (p : PortId) (o : FinalOutcome) (s : State) : QueueKept s (finalOutcome p o s) := by
  simp only [finalOutcome]; split
  · exact QueueKept.refl s
  · next e _ =>
    refine ((removeEntry_queueKept p s).trans (QueueKept.of_eq ?_)).trans (sweepAfter_queueKept _ _)
    simp [unhold, secondDownshiftTest_queue, takeOutcome_queue]

theorem dropWaiting_queueKept (p : PortId) (s : State) : QueueKept s (dropWaiting p s) := by
  simp only [dropWaiting]; split
  · exact QueueKept.refl s
  · exact (removeEntry_queueKept p s).trans (sweepAfter_queueKept _ _)

theorem youngestBackground_mem {q : List Entry} {b : Entry} (h : youngestBackground q = some b) : b ∈ q := by
  induction q generalizing b with
  | nil => simp [youngestBackground] at h
  | cons e es ih =>
    simp only [youngestBackground] at h
    split at h
    · split at h
      · cases h; exact List.mem_cons_self ..
      · next f hf =>
        split at h
        · cases h; exact List.mem_cons_of_mem _ (ih hf)
        · cases h; exact List.mem_cons_self ..
    · exact List.mem_cons_of_mem _ (ih h)

theorem autoRequest_queueKept (p : PortId) (r : MeasureRequest) (s t : State) (h : autoRequest p r s = some t) :
    QueueKept s t := by
  simp only [autoRequest] at h
  split at h
  · next e he =>
    cases h
    have k := waitingFor_some he
    exact mergeInto_queueKept p r e s k.1 k.2.1
  · next hw =>
    split at h
    · cases h
    · next hh =>
      have hn := no_entry hw (by simpa using hh)
      split at h
      · next hl => cases h; exact addEntry_queueKept p r s hl hn
      · split at h
        · next b hb =>
          cases h
          refine QueueKept.trans (t := addEntry p r (removeEntry b.target s)) ?_ (sweepAfter_queueKept _ _)
          intro hq
          refine addEntry_queueKept p r _ ?_ ?_ (removeEntry_queueKept b.target s hq)
          · exact lt_of_lt_of_le (withoutTarget_shorter (youngestBackground_mem hb) rfl) hq.1
          · intro x hx
            exact hn x ((withoutTarget_spec _ _ _).mp hx).1
        · cases h

/-! ### Channels and the arbiter -/

theorem enterClaiming_queue (ch : ChannelId) (s : State) : (enterClaiming ch s).queue = s.queue := by
  simp only [enterClaiming]; split <;> rfl
theorem releaseClaim_queue (ch : ChannelId) (s : State) : (releaseClaim ch s).queue = s.queue := by
  simp only [releaseClaim]; split
  · rfl
  · split <;> rfl
theorem returnResult_queue (ch : ChannelId) (s : State) : (returnResult ch s).queue = s.queue := by
  simp only [returnResult]; split <;> rfl
theorem enterBursting_queue (ch : ChannelId) (s : State) : (enterBursting ch s).queue = s.queue := rfl

theorem giveBack_queueKept (ch : ChannelId) (s : State) : QueueKept s (giveBack ch s) := by
  simp only [giveBack]; split
  · exact QueueKept.refl s
  · exact (setHolder_queueKept _ _ s).trans (QueueKept.of_eq rfl)

theorem endWith_queueKept (ch : ChannelId) (o : StopOutcome) (s : State) : QueueKept s (endWith ch o s) := by
  simp only [endWith]
  refine QueueKept.trans ?_ (modChan_queueKept _ _ _)
  split
  · exact QueueKept.refl s
  · cases o
    · exact finalOutcome_queueKept _ _ _
    · exact finalOutcome_queueKept _ _ _
    · exact giveBack_queueKept _ _
    · exact giveBack_queueKept _ _

theorem stopNow_queueKept (ch : ChannelId) (o : StopOutcome) (s : State) : QueueKept s (stopNow ch o s) := by
  simp only [stopNow]; split
  · exact (endWith_queueKept ch o s).trans (QueueKept.of_eq (releaseClaim_queue _ _))
  · exact (endWith_queueKept ch o s).trans (QueueKept.of_eq rfl)

theorem stopChannel_queueKept (ch : ChannelId) (o : StopOutcome) (s : State) : QueueKept s (stopChannel ch o s) := by
  simp only [stopChannel]; split
  · exact QueueKept.refl s
  · exact QueueKept.refl s
  · exact stopNow_queueKept _ _ _
  · split
    · exact modChan_queueKept _ _ _
    · exact stopNow_queueKept _ _ _
  · exact stopNow_queueKept _ _ _
  · split
    · exact modChan_queueKept _ _ _
    · exact stopNow_queueKept _ _ _

theorem finishBurst_queueKept (ch : ChannelId) (o : FinalOutcome) (s : State) : QueueKept s (finishBurst ch o s) := by
  simp only [finishBurst]; split
  · exact QueueKept.refl s
  · exact (finalOutcome_queueKept _ _ s).trans (QueueKept.of_eq (releaseClaim_queue _ _))

theorem pickup_queueKept (ch : ChannelId) (e : Entry) (s : State) : QueueKept s (pickup ch e s) := by
  have hs : QueueKept s (startPickup ch e s) :=
    (setHolder_queueKept e.target (some ch) s).trans (modChan_queueKept _ _ _)
  simp only [pickup]; split
  · exact hs.trans (finalOutcome_queueKept _ _ _)
  · split
    · exact hs.trans (QueueKept.of_eq (by simp [beginMeasurement, hold, dropLink_queue]))
    · exact hs.trans (finalOutcome_queueKept _ _ _)
  all_goals exact hs.trans (QueueKept.of_eq (by simp [enterClaiming_queue, beginMeasurement, hold]))

theorem offerTo_queueKept (ch : ChannelId) (s t : State) (h : offerTo ch s = some t) : QueueKept s t := by
  simp only [offerTo] at h
  split at h
  · simp only [Option.map_eq_some_iff] at h
    obtain ⟨e, -, rfl⟩ := h
    exact pickup_queueKept ch e s
  · cases h

theorem offers_queueKept (n : Nat) (s : State) : QueueKept s (offers n s) := by
  induction n generalizing s with
  | zero => exact QueueKept.refl s
  | succ n ih =>
    simp only [offers]; split
    · next t h => exact (offerTo_queueKept 1 s t h).trans (ih t)
    · split
      · next t h => exact (offerTo_queueKept 0 s t h).trans (ih t)
      · exact QueueKept.refl s

theorem moveReady_queue (ready : State → ChannelId → Bool) (move : ChannelId → State → State)
    (hm : ∀ ch u, (move ch u).queue = u.queue) (s : State) : (moveReady ready move s).queue = s.queue := by
  simp only [moveReady]; split
  · split <;> simp [hm]
  · split
    · simp [hm]
    · split <;> simp [hm]

/-- What follows a change of claims, entries or channels keeps the queue sound. -/
theorem react_queueKept (s : State) : QueueKept s (react s) := by
  refine QueueKept.trans (QueueKept.of_eq ?_) (offers_queueKept 64 _)
  simp [updateShadows, moveReady_queue _ _ enterClaiming_queue, moveReady_queue _ _ enterBursting_queue]

end Sys2Proof.Machine
end

