-- ==== Sys2Proof/Certificates/Slice0/Obligations.lean ====
section
/-! DEFINITION. The statements for the provers, family by family; each docstring names the rules it rests on. A statement's
conclusion `exec c s = .next …` is also the completion statement of its command. -/

open Sys2Proof Sys2Proof.Machine

/-! ### The machine -/

/-- One step runs the command at the front of the queue on the state with the queue's rest. -/
def Obligations.StepRunsTheFrontCommand : Prop :=
  ∀ (c : Instr) (rest : List Instr) (s : State), step { s with pending := c :: rest } = exec c { s with pending := rest }

/-- On an empty queue a step is the event that is due, else one µs of the clock: every timer that runs below its limit goes on by 1, a
recovery that ends before the last shot turns into the next listen gap, the line reads one bit and its own frame goes on to the next,
and nothing else changes but what calibration does at a front end. The event that is due is the first of the line's, the station's,
the claim view's, the channels' and the ports' events whose timer has reached its limit or whose bits have been read, and none is
where no such condition holds. That idling is the clock, and the order of events of one moment, are the model's choice (assumption
logs 1, 28 and 34), and so are the moments of a pair result and of a probe that a shadow held back (log 33) and the timers that run on
without effect (log 38); the times are those of section 5.2 and R91. -/
def Obligations.IdleStepIsTheDueEventOrOneMicrosecond : Prop :=
  (∀ s : State, s.pending = [] →
    (∀ c, due s = some c → step s = exec c s) ∧
    (due s = none → ∃ t, step s = .next t ∧
      t = { s with
        ports := t.ports, channels := t.channels, wire := s.wire.tail, now := s.now + 1
        station := { s.station with
          listen := s.station.listen.tick, calibrating := s.station.calibrating.tick, window := s.station.window.tick }
        sweep := { s.sweep with period := s.sweep.period.tick }
        budget := { s.budget with window := s.budget.window.tick, pace := s.budget.pace.tick }
        line := { readBit (drivenLevel s.line && s.wire.headD true) s.line with
          listenIn := s.line.listenIn.tick
          onLine := s.line.onLine.map (fun o => { o with position := min o.bits.length (o.position + 1) }) } } ∧
      (∀ p, t.port p = { s.port p with
        front := (t.port p).front
        train := { (s.port p).train with errorFree := (s.port p).train.errorFree.tick }
        timers := ⟨(s.port p).timers.wake.tick, (s.port p).timers.settle.tick, (s.port p).timers.offering.tick,
          (s.port p).timers.pageRepeat.tick, (s.port p).timers.alternation.tick, (s.port p).timers.legacy.tick,
          (s.port p).timers.resolving.tick, (s.port p).timers.identify.tick, (s.port p).timers.patternRepeat.tick,
          (s.port p).timers.probeRepeat.tick, (s.port p).timers.qualifyA.tick, (s.port p).timers.qualifyB.tick,
          (s.port p).timers.qualifying.tick, (s.port p).timers.backoff.tick⟩
        watch := { (s.port p).watch with
          window := (s.port p).watch.window.tick, silence := (s.port p).watch.silence.tick
          dropSettle := (s.port p).watch.dropSettle.tick } } ∧
        (s.station.phase ≠ .calibrating → (t.port p).front = (s.port p).front)) ∧
      ∀ ch, ∃ gap : Bool,
        (gap = true ↔ (s.chan ch).phase = .bursting ∧ (s.chan ch).stage = .recovery ∧
          (∃ m, (s.chan ch).meas = some m ∧ (s.chan ch).launched < m.planned) ∧ (s.chan ch).shot.running = true ∧
          (s.chan ch).shot.limit ≤ (s.chan ch).shot.elapsed + 1) ∧
        t.chan ch = { s.chan ch with
          settle := (s.chan ch).settle.tick
          shot := if gap then ⟨true, 0, 16⟩ else (s.chan ch).shot.tick
          stage := if gap then .gap else (s.chan ch).stage
          claim := (s.chan ch).claim.map (fun l =>
            { l with
              holdoff := if l.state = .holdoff ∧ l.holdoff.running = false then ⟨true, 0, 500⟩ else l.holdoff.tick
              yieldTimer := l.yieldTimer.tick }) })) ∧
  (∀ (s : State) (c : Instr), due s = some c ↔
    ∃ before condition after, dueRows s = before ++ (condition, c) :: after ∧ condition ∧ ∀ r ∈ before, ¬r.1) ∧
  (∀ s : State, due s = none ↔ ∀ r ∈ dueRows s, ¬r.1) ∧
  (∀ k : Timer,
    (k.running = true → k.elapsed < k.limit → k.tick = ⟨true, k.elapsed + 1, k.limit⟩) ∧
    (k.running = false ∨ k.limit ≤ k.elapsed → k.tick = k))

/-- What a power-on reset leaves, wherever Tables 1-5, 2-6, 3-3, 4-4, 5-7, 7-5, 8-6, 9-5 and 11-4 give a value, with the setup store at
every default of Table 11-3. The latched straps are not stated: the model chooses their levels (assumption log 3). A position, which
only a BURSTING channel has, and a local seed, which the next attempt draws, are absent as the phases say. -/
def Obligations.ResetLeavesTheSpecsValues : Prop :=
  (∀ p, (State.reset.port p).train.state = .offline ∧ (State.reset.port p).train.holds = ⟨false, false, false⟩ ∧
    (State.reset.port p).train.consoleDisabled = false ∧ (State.reset.port p).train.offerMask = ⟨true, true, true, true⟩ ∧
    (State.reset.port p).train.rolePref = .either ∧ (State.reset.port p).train.forced = none ∧
    (State.reset.port p).train.downshift = false ∧ (State.reset.port p).train.downshiftCheck = false ∧
    (State.reset.port p).train.tieCount = 0 ∧ (State.reset.port p).train.errorFree.elapsed = 0 ∧
    (State.reset.port p).train.crossover = .straight ∧ AttemptCleared (State.reset.port p).train ∧
    (State.reset.port p).train.consecutive = 0 ∧ (State.reset.port p).train.fourPair = 0 ∧
    (State.reset.port p).train.runAlerted = false ∧
    (State.reset.port p).train.health = ⟨.unknown, .unknown, .unknown, .unknown⟩ ∧
    (State.reset.port p).train.lastFailure = none ∧ (State.reset.port p).train.lastDrop = none ∧
    (State.reset.port p).train.shadowed = false ∧
    (State.reset.port p).res.abCrossed = none ∧ (State.reset.port p).res.cdCrossed = none ∧
    (∀ x, (State.reset.port p).res.polarity.get x = none ∧ (State.reset.port p).res.qp.get x = none ∧
      (State.reset.port p).res.skew.get x = none ∧ (State.reset.port p).res.ident.get x = none ∧
      (State.reset.port p).res.probesOut.get x = false) ∧
    (State.reset.port p).res.missing = none ∧ (State.reset.port p).res.listening = false ∧
    (State.reset.port p).res.identified = false ∧ (State.reset.port p).res.probing = false ∧
    (State.reset.port p).res.probedSent = false ∧ (State.reset.port p).res.checksPassed = false ∧
    (State.reset.port p).res.partnerIdentified = false ∧ (State.reset.port p).res.partnerProbed = false ∧
    (State.reset.port p).res.partnerDone = false ∧ (State.reset.port p).watch.condition = .off ∧
    (State.reset.port p).watch.window.running = false ∧ (State.reset.port p).watch.window.elapsed = 0 ∧
    (State.reset.port p).watch.symbol = 0 ∧ (State.reset.port p).watch.idle = 0 ∧ (State.reset.port p).watch.margin = 0 ∧
    (State.reset.port p).watch.silence.running = false ∧ (State.reset.port p).watch.silence.elapsed = 0 ∧
    (State.reset.port p).watch.dropSettle.running = false ∧
    (State.reset.port p).store = ⟨none, none, ⟨0, 0, 0, 0, 0, 0, 0, 0⟩⟩) ∧
  State.reset.queue = [] ∧ State.reset.arrival = 0 ∧ State.reset.sweep.status = .none ∧ State.reset.sweep.tag = 0 ∧
  State.reset.sweep.fields = none ∧ State.reset.sweep.cursor = none ∧ State.reset.sweep.period.running = false ∧
  State.reset.sweep.period.elapsed = 0 ∧ State.reset.budget.paced = false ∧ State.reset.budget.window.elapsed = 0 ∧
  State.reset.budget.shots = 0 ∧ State.reset.budget.paceLeft = 0 ∧ State.reset.budget.lastClaimStart = none ∧
  (∀ ch, (State.reset.chan ch).phase = .idle ∧ (State.reset.chan ch).meas = none ∧ heldEntry ch State.reset = none ∧
    (State.reset.chan ch).settle.running = false ∧ (State.reset.chan ch).settled = false ∧ (State.reset.chan ch).stop = none ∧
    (State.reset.chan ch).launched = 0 ∧
    (∀ x, (State.reset.chan ch).sums.get x = ⟨[], [], [], []⟩) ∧ (State.reset.chan ch).results = [] ∧
    (State.reset.chan ch).claim = none) ∧
  State.reset.claimCounter = 0 ∧ State.reset.view = [] ∧ State.reset.unknownReleases = 0 ∧ State.reset.line.condition = .busy ∧
  State.reset.line.idleCount = 0 ∧ State.reset.line.dominantRun = 0 ∧ State.reset.line.listenIn.running = false ∧
  State.reset.line.assembler = .waitIdle ∧ State.reset.line.list = [] ∧ State.reset.line.onLine = none ∧
  State.reset.line.duplicate = false ∧
  State.reset.counters = ⟨0, 0, 0, 0, 0, 0⟩ ∧ State.reset.sequence = 0 ∧ State.reset.summary = Summary.empty ∧
  State.reset.station.phase = .listen ∧ State.reset.station.listen = ⟨true, 0, 20000⟩ ∧
  State.reset.station.announced = false ∧ State.reset.station.locked = false ∧ State.reset.station.calibration = none ∧
  (∀ p, State.reset.station.calFaults.has p = false) ∧ State.reset.station.window.running = false ∧
  State.reset.station.cause = .powerOn ∧ State.reset.setup = Setup.default ∧
  (∀ i : Fin 8, Setup.default.delay[i] = 5000 + 100 * i.val) ∧
  (∀ (p : PortId) (i : Fin 4), Setup.default.segments[p.val][i] = ⟨0, 0, false⟩) ∧
  (∀ p : PortId, Setup.default.criteria[p.val] = ⟨true, false, false, true, false⟩ ∧ Setup.default.diagnose.has p = true) ∧
  Setup.default.alpha = 6 ∧ Setup.default.detect = 48 ∧ Setup.default.busy = 96 ∧ Setup.default.mismatch = 8 ∧
  Setup.default.junctionLimit = 24 ∧ Setup.default.cross = 32 ∧ Setup.default.window = 16 ∧ Setup.default.thresholdE = 24 ∧
  Setup.default.thresholdI = 16 ∧ Setup.default.thresholdM = 12 ∧ Setup.default.dropSettle = 2 ∧ Setup.default.wakeSettle = 1 ∧
  Setup.default.autoReach = .long ∧ Setup.default.autoAveraging = .n4 ∧ Setup.default.downshiftEnable = true ∧
  Setup.default.downshiftAttempts = 3 ∧ Setup.default.skewLimit = 40 ∧ Setup.default.budgetWindow = 250 ∧
  Setup.default.shotThreshold = 8192 ∧ Setup.default.paceTime = 2 ∧ Setup.default.paceInterval = 50

/-- The reset state meets the invariants that every step keeps. -/
def Obligations.ResetMeetsEveryInvariant : Prop :=
  QueueOk State.reset.queue ∧ ViewOk State.reset.view ∧ HoldsOk State.reset ∧ FramesOk State.reset ∧
    TargetsApart State.reset ∧ SetupOk State.reset.setup

/-- R62, R159: the request queue keeps at most 16 entries, distinct targets and queue order; the claim view keeps at most 16 entries
and no two of one claiming station and claim number. -/
def Obligations.EveryStepKeepsQueueAndClaimViewSound : Prop :=
  ∀ s t : State, step s = .next t →
    (QueueOk s.queue → QueueOk t.queue) ∧ (ViewOk s.view → ViewOk t.view)

/-- R20, R5, R57: a port is HELD exactly when its hold reasons are not empty, SETTLE stands exactly while the drop settle runs, and
a port is OFFLINE outside RUN. -/
def Obligations.EveryStepKeepsHoldReasonsConsistent : Prop :=
  ∀ s t : State, HoldsOk s → step s = .next t → HoldsOk t

/-- R145, R137, R158: the transmit list stays in list order with at most 8 frames: 1 REJOIN, 2 RELEASE, 2 CLAIM, 2 REPORT and 1 ALERT,
no payload beyond 15 bytes, each channel's CLAIM only while its claim is unsent and its RELEASE only while it is released; a frame
on the line is in the list, and none is there under line trouble. -/
def Obligations.EveryStepKeepsTheTransmitListSound : Prop :=
  ∀ s t : State, FramesOk s → step s = .next t → FramesOk t

/-- R75: the two channels never come to hold measurements of conflicting targets. -/
def Obligations.EveryStepKeepsTheChannelsTargetsApart : Prop :=
  ∀ s t : State, TargetsApart s → step s = .next t → TargetsApart t

/-- R187, R104, R188, R189: every step keeps every setup item in its range and every segment table non-decreasing; a command changes the
setup store only in SETUP or at a power-on reset, and only a power-on reset clears the lock. -/
def Obligations.SetupStaysInRangeAndChangesOnlyWhereItMay : Prop :=
  (∀ s t : State, SetupOk s.setup → step s = .next t → SetupOk t.setup) ∧
  (∀ (c : Instr) (s t : State), exec c s = .next t → t.setup ≠ s.setup →
     s.station.phase = .setup ∨ ∃ straps, c = .powerOnReset straps) ∧
  (∀ (c : Instr) (s t : State), exec c s = .next t → s.station.locked = true → t.station.locked = false →
     ∃ straps, c = .powerOnReset straps)

/-- R93: a shot is launched by a launch trigger alone, on a HELD port, with no conflicting claim in the view and no stop pending. -/
def Obligations.NoShotWithoutAHeldPortAndAClearView : Prop :=
  ∀ (c : Instr) (s t : State) (ch : ChannelId), exec c s = .next t → (s.chan ch).launched < (t.chan ch).launched →
    c = .launchTrigger ch ∧ (s.chan ch).phase = .bursting ∧ (s.chan ch).stop = none ∧
      ∃ m, (s.chan ch).meas = some m ∧ (s.port m.port).train.state = .held ∧
        ∀ v ∈ s.view, conflicts s.station.geometry m.target v.target = false

/-- R17: a port that leaves UP while the station stays in RUN has a drop cause recorded, its grade and role cleared, and LINK_DOWN
in the event summary. -/
def Obligations.LeavingUpIsADropWithACauseAndLinkDown : Prop :=
  ∀ (c : Instr) (s t : State) (p : PortId), exec c s = .next t → s.station.phase = .run →
    (s.port p).train.state = .up → (t.port p).train.state ≠ .up → t.station.phase = .run →
    (t.port p).train.lastDrop.isSome ∧ (t.port p).train.grade = none ∧ (t.port p).train.role = none ∧
      t.summary.linkDown.has p = true

/-! ### Resets -/

/-- R183, R184, R189: what the three station-level resets leave in every block. The seed 0, the stopped timers, nothing launched and
the front end's inputs kept are the model's choice (assumption log 4), and so is a reset taken as one moment, at its release (log 25).
A timer that stops here stands at 0, which is the model's choice (assumption log 38). -/
def Obligations.StationLevelResetsLeaveTheirColumns : Prop :=
  (∀ (straps : Straps) (s : State), ∃ t, exec (.powerOnReset straps) s = .next t ∧ BlocksReset s t ∧ t.setup = Setup.default ∧
    t.station = ⟨straps.station, straps.population, straps.geometry, .listen, ⟨true, 0, 20000⟩, .powerOn, false, false, none,
      PortSet.none, Timer.off, Timer.off⟩) ∧
  (∀ (straps : Straps) (s : State), ∃ t, exec (.hardReset straps) s = .next t ∧ BlocksReset s t ∧ t.setup = s.setup ∧
    t.station.number = straps.station ∧ t.station.geometry = straps.geometry ∧
    StationRestarts .hardReset s.station t.station) ∧
  (∀ (via : Via) (port : Byte) (s : State), RequestReady s → via.broadcast = false →
    ∃ t, exec (.resetStation via port) s = .next t ∧ BlocksReset s t ∧ t.setup = s.setup ∧
      t.station.number = s.station.number ∧ t.station.geometry = s.station.geometry ∧
      StationRestarts .stationReset s.station t.station)

/-! ### Energy and the quality watch -/

/-- R2, R3, R50, R52: energy appearing and disappearing at a port that no criterion drops, and the energy wake. Energy that appears
with the DORMANT entry itself is given by the flag (the model's choice, assumption log 11), and the fields of the attempt that a port
leaves are cleared (assumption log 12). -/
def Obligations.EnergyAtAPortStartsAndStopsItsTimers : Prop :=
  ∀ (p : PortId) (s : State),
    ((s.port p).front.energy = false → (s.port p).train.state = .dormant →
      exec (.energyAppears p false) s = .next (s.modPort p (fun pt =>
        { pt with front.energy := true, timers.wake := ⟨true, 0, 2000⟩ }))) ∧
    ((s.port p).front.energy = false → (s.port p).train.state = .dormant →
      ∃ t, exec (.energyAppears p true) s = .next t ∧ SameButPort p s t ∧
        EntersSettling s.setup.wakeSettle { s.port p with front := { (s.port p).front with energy := true } } (t.port p)) ∧
    (∀ b, (s.port p).front.energy = false → (s.port p).train.state = .up →
      exec (.energyAppears p b) s = .next (s.modPort p (fun pt =>
        { pt with front.energy := true, watch.silence := ⟨false, 0, 0⟩ }))) ∧
    (∀ b, (s.port p).front.energy = false → (s.port p).train.state ≠ .dormant → (s.port p).train.state ≠ .up →
      exec (.energyAppears p b) s = .next (s.modPort p (fun pt => { pt with front.energy := true }))) ∧
    ((s.port p).front.energy = true → (s.port p).train.state = .dormant →
      exec (.energyDisappears p) s = .next (s.modPort p (fun pt =>
        { pt with front.energy := false, timers.wake := ⟨false, 0, 0⟩ }))) ∧
    ((s.port p).front.energy = true → (s.port p).train.state = .up → (s.criteria p).energyLoss = false →
      exec (.energyDisappears p) s = .next (s.modPort p (fun pt =>
        { pt with front.energy := false, watch.silence := ⟨true, 0, 100000⟩ }))) ∧
    ((s.port p).front.energy = true → (s.port p).train.state ≠ .dormant → (s.port p).train.state ≠ .up →
      exec (.energyDisappears p) s = .next (s.modPort p (fun pt => { pt with front.energy := false }))) ∧
    ((s.port p).train.state = .dormant → (s.port p).front.energy = true → (s.port p).timers.wake.running = true →
      ∃ t, exec (.energyWake p) s = .next t ∧ SameButPort p s t ∧
        EntersSettling s.setup.wakeSettle (s.port p) (t.port p))

/-- R47 to R49, R54: at an UP port an event of a criterion that counts adds 1 to its count below the threshold; the events of a disabled
or dormant criterion, and every counted event in SUSPENDED, are discarded; the window expiry returns the counts to 0. -/
def Obligations.WatchEventsCountUntilTheWindowEnds : Prop :=
  ((∀ (p : PortId) (s : State), (s.port p).train.state = .up → (s.port p).watch.condition = .counting →
      ((s.criteria p).symbolErrors = true → (s.port p).watch.symbol + 1 < s.setup.thresholdE →
        exec (.symbolError p) s = .next (s.modPort p (fun pt => { pt with watch.symbol := (s.port p).watch.symbol + 1 }))) ∧
      ((s.criteria p).idleErrors = true → (s.port p).watch.idle + 1 < s.setup.thresholdI →
        exec (.idleError p) s = .next (s.modPort p (fun pt => { pt with watch.idle := (s.port p).watch.idle + 1 }))) ∧
      ((s.criteria p).marginDips = true → ((s.criteria p).symbolErrors = true ∨ (s.criteria p).energyLoss = true) →
        (s.port p).watch.margin + 1 < s.setup.thresholdM →
        exec (.marginDip p) s = .next (s.modPort p (fun pt => { pt with watch.margin := (s.port p).watch.margin + 1 })))) ∧
   (∀ (p : PortId) (s : State), (s.port p).train.state = .up →
      ((s.port p).watch.condition ≠ .counting ∨ (s.criteria p).symbolErrors = false → exec (.symbolError p) s = .next s) ∧
      ((s.port p).watch.condition ≠ .counting ∨ (s.criteria p).idleErrors = false → exec (.idleError p) s = .next s) ∧
      ((s.port p).watch.condition ≠ .counting ∨ (s.criteria p).marginDips = false ∨
          ((s.criteria p).symbolErrors = false ∧ (s.criteria p).energyLoss = false) →
        exec (.marginDip p) s = .next s))) ∧
  (∀ (p : PortId) (s : State), (s.port p).train.state = .up → (s.port p).watch.condition = .counting →
     exec (.windowExpiry p) s = .next (s.modPort p (fun pt =>
       { pt with watch := { pt.watch with window := ⟨true, 0, s.setup.window⟩, symbol := 0, idle := 0, margin := 0 } })))

/-- R49 to R53: the count that reaches its threshold, the loss of energy under ENERGY_LOSS, a loss of lock where LOCK_LOSS counts (in
COUNTING and in SUSPENDED) and SILENCE drop the link; a loss of lock where the criterion is disabled or dormant is discarded. That the
drop clears the partner page and the hearing count with grade and role is the model's choice (assumption log 12). -/
def Obligations.QualityCriteriaTakeTheLinkDown : Prop :=
  ∀ (p : PortId) (s : State), (s.port p).train.state = .up →
    ((s.port p).watch.condition = .counting → (s.criteria p).symbolErrors = true →
      s.setup.thresholdE ≤ (s.port p).watch.symbol + 1 →
      ∃ t, exec (.symbolError p) s = .next t ∧ QualityDropped p .symbolErrors s t) ∧
    ((s.port p).watch.condition = .counting → (s.criteria p).idleErrors = true →
      s.setup.thresholdI ≤ (s.port p).watch.idle + 1 →
      ∃ t, exec (.idleError p) s = .next t ∧ QualityDropped p .idleErrors s t) ∧
    ((s.port p).watch.condition = .counting → (s.criteria p).marginDips = true →
      ((s.criteria p).symbolErrors = true ∨ (s.criteria p).energyLoss = true) →
      s.setup.thresholdM ≤ (s.port p).watch.margin + 1 →
      ∃ t, exec (.marginDip p) s = .next t ∧ QualityDropped p .marginDips s t) ∧
    ((s.port p).front.energy = true → (s.criteria p).energyLoss = true →
      ∃ t, exec (.energyDisappears p) s = .next t ∧
        QualityDropped p .energyLoss (s.modPort p (fun pt => { pt with front.energy := false })) t) ∧
    ((s.port p).watch.silence.running = true →
      ∃ t, exec (.silence p) s = .next t ∧ QualityDropped p .silence s t) ∧
    ((s.criteria p).lockLoss = true → ((s.criteria p).symbolErrors = true ∨ (s.criteria p).energyLoss = true) →
      ∃ t, exec (.lossOfLock p) s = .next t ∧ QualityDropped p .lockLoss s t) ∧
    ((s.criteria p).lockLoss = false ∨ ((s.criteria p).symbolErrors = false ∧ (s.criteria p).energyLoss = false) →
      exec (.lossOfLock p) s = .next s)

/-- R15, R54 to R56, R167: in QUALIFYING, symbol errors, idle errors and losses of lock return the error-free timer to 0, but not
while the port is shadowed, and a margin dip never does. A port is shadowed while a claim of the view, or a local claim in HOLDOFF,
WAIT_YIELD or ACTIVE, has it in its zone without being for it; the start of a shadow suspends the watch of an UP port with its counts
at 0 and stops the error-free timer of a QUALIFYING one, its end starts a new window and lets the timer go on. A timer that stops here
stands at 0, which is the model's choice (assumption log 38). -/
def Obligations.DisturbancesAndShadowsActOnWatchAndErrorFreeTimer : Prop :=
  (∀ (p : PortId) (s : State), (s.port p).train.state = .qualifying →
    (∀ c ∈ [Instr.symbolError p, .idleError p, .lossOfLock p],
      exec c s = .next (if (s.port p).train.shadowed then s
        else s.modPort p (fun pt => { pt with train.errorFree := { pt.train.errorFree with elapsed := 0 } }))) ∧
    exec (.marginDip p) s = .next s) ∧
  (∀ s : State, updateShadows s = { s with ports := (updateShadows s).ports } ∧
    ∀ (p : PortId) (on : Bool),
      (on = true ↔
        (∃ v ∈ s.view, v.target ≠ globalOf s.station.number p ∧
          conflicts s.station.geometry v.target (globalOf s.station.number p) = true) ∨
        ∃ ch l, (s.chan ch).claim = some l ∧ (l.state = .holdoff ∨ l.state = .waitYield ∨ l.state = .active) ∧
          l.target ≠ globalOf s.station.number p ∧
          conflicts s.station.geometry l.target (globalOf s.station.number p) = true) →
      ((s.port p).train.shadowed = on → (updateShadows s).port p = s.port p) ∧
      ((s.port p).train.shadowed ≠ on →
        ((s.port p).train.state = .up → (s.port p).watch.condition = (if on then .counting else .suspended) →
          (updateShadows s).port p = { s.port p with
            train := { (s.port p).train with shadowed := on }
            watch := { (s.port p).watch with
              condition := if on then .suspended else .counting
              window := if on then ⟨false, 0, 0⟩ else ⟨true, 0, s.setup.window⟩
              symbol := 0, idle := 0, margin := 0 } }) ∧
        ((s.port p).train.state = .qualifying →
          (updateShadows s).port p = { s.port p with
            train := { (s.port p).train with
              shadowed := on, errorFree := { (s.port p).train.errorFree with running := !on } } }) ∧
        ((s.port p).train.state ≠ .qualifying →
          ((s.port p).train.state ≠ .up ∨ (s.port p).watch.condition ≠ (if on then .counting else .suspended)) →
          (updateShadows s).port p = { s.port p with train := { (s.port p).train with shadowed := on } })))

/-- R58, R66, R67: the drop settle ends with no request under CHANNEL, and otherwise with the DROP request accepted, merged, accepted
in the place of the youngest waiting BACKGROUND entry of a full queue, or noted as QUEUE_FULL. A timer that stops here stands at 0,
which is the model's choice (assumption log 38). -/
def Obligations.DropSettleExpiryMakesTheDropRequest : Prop :=
  ∀ (p : PortId) (s : State), (s.port p).watch.dropSettle.running = true →
    ((s.port p).train.state = .held → (s.port p).train.holds.channel = true →
      exec (.dropSettleExpiry p) s = .next (s.modPort p (fun pt =>
        { pt with watch.dropSettle := ⟨false, 0, 0⟩, train.holds := { pt.train.holds with settle := false } }))) ∧
    ((s.port p).train.holds.channel = false → (∀ e ∈ s.queue, e.target ≠ p) → s.queue.length < 16 →
      exec (.dropSettleExpiry p) s = .next (react ({ s with
        queue := insertEntry ⟨p, ⟨true, true, true, true⟩, s.setup.autoReach, s.setup.autoAveraging, false, .urgent, .drop, none,
          s.arrival, none⟩ s.queue
        arrival := s.arrival + 1 }.modPort p (fun pt =>
        { pt with watch.dropSettle := ⟨false, 0, 0⟩
                  train.holds := { pt.train.holds with settle := false, await := true } })))) ∧
    (∀ e, (s.port p).train.holds.channel = false → waitingFor p s = some e →
      exec (.dropSettleExpiry p) s = .next (react ({ s with
        queue := insertEntry { e with
            pairs := ⟨true, true, true, true⟩
            reach := longerReach e.reach s.setup.autoReach
            averaging := largerAveraging e.averaging s.setup.autoAveraging
            priority := .urgent
            origin := if e.priority = Priority.urgent then e.origin else .drop }
          (s.queue.filter (fun f => decide (f.target ≠ p))) }.modPort p (fun pt =>
        { pt with watch.dropSettle := ⟨false, 0, 0⟩
                  train.holds := { pt.train.holds with settle := false, await := true } })))) ∧
    (∀ b w, (s.port p).train.holds.channel = false → (∀ e ∈ s.queue, e.target ≠ p) → 16 ≤ s.queue.length →
        b ∈ s.queue → b.holder = none → b.priority = .background →
        (∀ x ∈ s.queue, x.holder = none → x.priority = .background → x = b ∨ x.stamp < b.stamp) →
        w = { s with
          queue := insertEntry ⟨p, ⟨true, true, true, true⟩, s.setup.autoReach, s.setup.autoAveraging, false, .urgent, .drop, none,
            s.arrival, none⟩ (s.queue.filter (fun f => decide (f.target ≠ b.target)))
          arrival := s.arrival + 1 }.modPort p (fun pt =>
            { pt with watch.dropSettle := ⟨false, 0, 0⟩
                      train.holds := { pt.train.holds with settle := false, await := true } }) →
      exec (.dropSettleExpiry p) s = .next (react
        (if (b.tag = some s.sweep.tag ∧ s.sweep.fields.isSome) ∨ s.sweep.status = .waitingSpace then sweepAdvance w else w))) ∧
    ((s.port p).train.state = .held → (s.port p).train.holds = ⟨false, true, false⟩ → (∀ e ∈ s.queue, e.target ≠ p) →
      16 ≤ s.queue.length → (∀ e ∈ s.queue, e.holder = none → e.priority ≠ .background) →
      ∃ t, exec (.dropSettleExpiry p) s = .next t ∧ OnlyPortAndEvents p s t ∧ t.summary = s.summary.add (.diagDone p) ∧
        (t.port p).store = { (s.port p).store with attempt := some .queueFull } ∧
        (t.port p).train.state = (if (s.port p).front.energy then .settling else .dormant) ∧
        (t.port p).train.holds = ⟨false, false, false⟩)

/-! ### Link training -/

/-- R4, R7, R8, R11, R19, R29, R32: the settle expiry goes to DORMANT without energy, to RESOLVING at a forced grade, and else to
OFFERING as a new attempt, its first alternation interval in 50..90 ms; the backoff expiry takes re-entry. The model's choices: the
first page goes out after one repetition period (assumption log 30), seed and interval are free draws (log 5), and a G2 idle stream or
a partner link signal that already stands runs its timer from the entry on (log 35). A timer that stops here stands at 0, which is the
model's choice (assumption log 38). -/
def Obligations.SettleAndBackoffExpiriesChooseTheNextState : Prop :=
  (∀ (p : PortId) (s : State), (s.port p).train.state = .settling →
     ((s.port p).front.energy = false →
       ∃ t, exec (.settleExpiry p) s = .next t ∧ SameButPort p s t ∧ EntersDormant (s.port p) (t.port p)) ∧
     (∀ g, (s.port p).front.energy = true → (s.port p).train.forced = some g →
       ∃ t, exec (.settleExpiry p) s = .next t ∧ SameButPort p s t ∧
         (t.port p).train = { (s.port p).train with state := .resolving, grade := some g, role := none } ∧
         (t.port p).res = { Resolution.fresh with listening := true } ∧
         (t.port p).timers.resolving = ⟨true, 0, 300000⟩ ∧ (t.port p).timers.identify = ⟨true, 0, 100000⟩ ∧
         (t.port p).timers.qualifyA =
           (if (s.port p).front.signalA = true ∧ (s.port p).front.signalB = false then ⟨true, 0, 2000⟩ else ⟨false, 0, 0⟩) ∧
         (t.port p).timers.qualifyB =
           (if (s.port p).front.signalB = true ∧ (s.port p).front.signalA = false then ⟨true, 0, 2000⟩ else ⟨false, 0, 0⟩) ∧
         (t.port p).front = (s.port p).front ∧ (t.port p).watch = (s.port p).watch ∧ (t.port p).store = (s.port p).store) ∧
     ((s.port p).front.energy = true → (s.port p).train.forced = none →
       ∃ t, exec (.settleExpiry p) s = .next t ∧ t = { s.modPort p (fun _ => t.port p) with draws := s.draws + 2 } ∧
         (t.port p).train.state = .offering ∧ (t.port p).train.tieCount = 0 ∧ (t.port p).train.crossover = .straight ∧
         AttemptCleared (t.port p).train ∧ (t.port p).train.pageHeard = false ∧
         SettingsKept (s.port p).train (t.port p).train ∧ CountsKept (s.port p).train (t.port p).train ∧
         RestOfPortKept (s.port p) (t.port p) ∧
         (t.port p).timers.offering = ⟨true, 0, 800000⟩ ∧ (t.port p).timers.pageRepeat = ⟨true, 0, 8000⟩ ∧
         (t.port p).timers.legacy = (if (s.port p).front.g2Stream then ⟨true, 0, 20000⟩ else ⟨false, 0, 0⟩) ∧
         ∃ ms, 50 ≤ ms ∧ ms ≤ 90 ∧ (t.port p).timers.alternation = ⟨!(s.port p).front.g2Stream, 0, 1000 * ms⟩)) ∧
  (∀ (p : PortId) (s : State), (s.port p).train.state = .backoff →
     ∃ t, exec (.backoffExpiry p) s = .next t ∧ SameButPort p s t ∧ TakesReEntry s.setup.wakeSettle (s.port p) (t.port p))

/-- R7, R30, R33: what the repetitions of a port launch, and the return of a partner probe after 96 quarter-ticks. That STRAIGHT
transmits on pair A (assumption log 13) and that the state keeps what was launched last (log 19) are the model's choices. -/
def Obligations.RepetitionsLaunchTheirSignals : Prop :=
  ∀ (p : PortId) (s : State),
    ((s.port p).train.state = .offering →
      exec (.offerPageSend p) s = .next (s.modPort p (fun pt =>
        { pt with
          front.launched := [.page
            ⟨currentOffer pt.train, pt.train.rolePref, pt.train.seed, pt.train.accepted⟩
            (if pt.train.crossover = .straight then .A else .B)]
          timers.pageRepeat := ⟨true, 0, 8000⟩ }))) ∧
    (∀ g, (s.port p).train.state = .resolving → (s.port p).res.listening = false → (s.port p).train.grade = some g →
      exec (.identificationSend p) s = .next (s.modPort p (fun pt =>
        { pt with
          front.launched := [.patterns
            (if g = .G3 ∨ g = .G4 then ⟨true, true, true, true⟩ else ⟨true, true, false, false⟩)
            ⟨pt.res.identified, pt.res.probedSent, pt.res.checksPassed⟩]
          timers.patternRepeat := ⟨true, 0, 1000⟩ }))) ∧
    ((s.port p).train.state = .resolving → (s.port p).res.listening = false → (s.port p).res.probing = true →
      exec (.probeLaunch p) s = .next (if (s.port p).train.shadowed then s else s.modPort p (fun pt =>
        { pt with
          front.launched := [.probes (pt.res.qp.map Option.isNone)]
          res.probesOut := pt.res.qp.map Option.isNone
          timers.probeRepeat := ⟨true, 0, 1000⟩ }))) ∧
    (∀ x, (s.port p).train.state = .resolving →
      exec (.partnerProbe p x) s = .next (s.modPort p (fun pt => { pt with front.launched := [.turnaround x 96] })))

/-- R8, R11: while no page has been heard, an alternation interval flips the crossover setting and starts the next of 50..90 ms; a G2
idle stream starts the 20 ms of legacy detection and freezes the interval, and its break resumes it; elsewhere the front end notes the
stream alone; legacy detection resolves at G2 where it is offered, and fails the attempt where it is not. A partner signal that stands
at that entry runs from it (the model's choice, assumption log 35). A timer that stops here stands at 0, which is the model's choice
(assumption log 38). -/
def Obligations.AlternationAndLegacyDetection : Prop :=
  (∀ (p : PortId) (s : State), (s.port p).train.state = .offering → (s.port p).train.pageHeard = false →
     ((s.port p).timers.alternation.running = true →
       ∃ ms, 50 ≤ ms ∧ ms ≤ 90 ∧ exec (.crossoverAlternation p) s = .next { s.modPort p (fun pt =>
         { pt with
           train.crossover := if pt.train.crossover = .straight then .crossed else .straight
           timers.alternation := ⟨true, 0, 1000 * ms⟩ }) with draws := s.draws + 1 }) ∧
     ((s.port p).front.g2Stream = false →
       exec (.g2IdleStreamChange p true) s = .next (s.modPort p (fun pt =>
         { pt with
           front.g2Stream := true
           timers := { pt.timers with
             legacy := ⟨true, 0, 20000⟩, alternation := { pt.timers.alternation with running := false } } }))) ∧
     ((s.port p).front.g2Stream = true →
       exec (.g2IdleStreamChange p false) s = .next (s.modPort p (fun pt =>
         { pt with
           front.g2Stream := false
           timers := { pt.timers with
             legacy := ⟨false, 0, 0⟩, alternation := { pt.timers.alternation with running := true } } })))) ∧
  (∀ (p : PortId) (b : Bool) (s : State),
     ((s.port p).train.state ≠ .offering ∨ (s.port p).train.pageHeard = true) →
     exec (.g2IdleStreamChange p b) s = .next (s.modPort p (fun pt => { pt with front.g2Stream := b }))) ∧
  (∀ (p : PortId) (s : State), (s.port p).train.state = .offering → (s.port p).train.pageHeard = false →
     (s.port p).timers.legacy.running = true →
     ((currentOffer (s.port p).train).g2 = true →
       ∃ t, exec (.legacyDetection p) s = .next t ∧ SameButPort p s t ∧
         (t.port p).train = { (s.port p).train with state := .resolving, grade := some .G2, role := none } ∧
         (t.port p).res = { Resolution.fresh with listening := true } ∧ (t.port p).front = (s.port p).front ∧
         (t.port p).timers.resolving = ⟨true, 0, 300000⟩ ∧ (t.port p).timers.identify = ⟨true, 0, 100000⟩ ∧
         (t.port p).timers.qualifyA =
           (if (s.port p).front.signalA = true ∧ (s.port p).front.signalB = false then ⟨true, 0, 2000⟩ else ⟨false, 0, 0⟩) ∧
         (t.port p).timers.qualifyB =
           (if (s.port p).front.signalB = true ∧ (s.port p).front.signalA = false then ⟨true, 0, 2000⟩ else ⟨false, 0, 0⟩)) ∧
     ((currentOffer (s.port p).train).g2 = false →
       ∃ t, exec (.legacyDetection p) s = .next t ∧ AttemptFailed p .noCommonGrade false s t))

/-- R8, R9, R11: the hearing that does not complete the exchange: first page, identical page, differing page; any hearing ends the
alternation and the G2 idle stream of the attempt. A timer that stops here stands at 0, which is the model's choice (assumption log
38). -/
def Obligations.OfferPageHearingsCountAndCompare : Prop :=
  ∀ (p : PortId) (page : OfferPage) (s : State), (s.port p).train.state = .offering →
    ((s.port p).train.partner = none →
      exec (.offerPageHearing p page) s = .next (s.modPort p (fun pt =>
        { pt with
          front.g2Stream := false
          train := { pt.train with partner := some page, pageHeard := true, hearing := 1, accepted := false }
          timers := { pt.timers with alternation := ⟨false, 0, 0⟩, legacy := ⟨false, 0, 0⟩ } }))) ∧
    (∀ b, (s.port p).train.partner = some { page with ack := b } →
        (page.ack = false ∨ ((s.port p).train.accepted = false ∧ (s.port p).train.hearing < 2)) →
      exec (.offerPageHearing p page) s = .next (s.modPort p (fun pt =>
        { pt with
          front.g2Stream := false
          train := { pt.train with
            partner := some page, pageHeard := true, hearing := min 3 (pt.train.hearing + 1)
            accepted := pt.train.accepted || decide (2 ≤ pt.train.hearing) }
          timers := { pt.timers with alternation := ⟨false, 0, 0⟩, legacy := ⟨false, 0, 0⟩ } }))) ∧
    (∀ q, (s.port p).train.partner = some q → (q.grades ≠ page.grades ∨ q.pref ≠ page.pref ∨ q.seed ≠ page.seed) →
      exec (.offerPageHearing p page) s = .next (s.modPort p (fun pt =>
        { pt with
          front.g2Stream := false
          train := { pt.train with partner := some page, pageHeard := true, hearing := 1, accepted := false }
          timers := { pt.timers with alternation := ⟨false, 0, 0⟩, legacy := ⟨false, 0, 0⟩ } })))

/-- R9, R10, R13, R14, R29: the completing hearing: no common grade, a settled role, a tie, the seventh tie; and the table of timing roles,
a tie only at equal preferences and equal seeds. -/
def Obligations.CompletedExchangeResolvesGradeAndRole : Prop :=
  (∀ (p : PortId) (page : OfferPage) (b : Bool) (s : State), (s.port p).train.state = .offering →
     (s.port p).train.partner = some { page with ack := b } → page.ack = true →
     ((s.port p).train.accepted = true ∨ 2 ≤ (s.port p).train.hearing) →
     (highestGrade ((currentOffer (s.port p).train).inter page.grades) = none →
       ∃ t, exec (.offerPageHearing p page) s = .next t ∧ AttemptFailed p .noCommonGrade false
         (s.modPort p (fun pt => { pt with front.g2Stream := false })) t) ∧
     (∀ g, highestGrade ((currentOffer (s.port p).train).inter page.grades) = some g →
       (∀ r, settleRole (s.port p).train.rolePref (s.port p).train.seed page = some r →
         ∃ t, exec (.offerPageHearing p page) s = .next t ∧ SameButPort p s t ∧
           (t.port p).train.state = .resolving ∧ (t.port p).train.grade = some g ∧ (t.port p).train.role = some r ∧
           (t.port p).res = Resolution.fresh ∧ (t.port p).timers.resolving = ⟨true, 0, 300000⟩ ∧
           (t.port p).timers.identify = ⟨true, 0, 100000⟩ ∧ SettingsKept (s.port p).train (t.port p).train ∧
           CountsKept (s.port p).train (t.port p).train) ∧
       (settleRole (s.port p).train.rolePref (s.port p).train.seed page = none → (s.port p).train.tieCount < 6 →
         ∃ t, exec (.offerPageHearing p page) s = .next t ∧ t = { s.modPort p (fun _ => t.port p) with draws := s.draws + 1 } ∧
           (t.port p).train.state = .offering ∧ (t.port p).train.tieCount = (s.port p).train.tieCount + 1 ∧
           (t.port p).train.crossover = (s.port p).train.crossover ∧ AttemptCleared (t.port p).train ∧
           (t.port p).timers.offering = ⟨true, 0, 800000⟩ ∧ (t.port p).timers.alternation.running = false ∧
           SettingsKept (s.port p).train (t.port p).train ∧ CountsKept (s.port p).train (t.port p).train) ∧
       (settleRole (s.port p).train.rolePref (s.port p).train.seed page = none → 6 ≤ (s.port p).train.tieCount →
         ∃ t, exec (.offerPageHearing p page) s = .next t ∧ AttemptFailed p .roleTie false
           (s.modPort p (fun pt => { pt with front.g2Stream := false })) t))) ∧
  (∀ (seed : BitVec 10) (page : OfferPage),
     (page.pref ≠ .source → settleRole .source seed page = some .source) ∧
     (page.pref ≠ .follow → settleRole .follow seed page = some .follow) ∧
     (page.pref = .source → settleRole .either seed page = some .follow) ∧
     (page.pref = .follow → settleRole .either seed page = some .source) ∧
     (∀ pref, page.pref = pref → settleRole pref seed page =
       if page.seed.toNat < seed.toNat then some .source else if seed.toNat < page.seed.toNat then some .follow else none))

/-- R12, R14, R15, R18, R19, R31, R32: the limits of training fail the attempt with their causes and send the port to BACKOFF, where
no downshift test follows. -/
def Obligations.TrainingLimitsFailTheAttemptIntoBackoff : Prop :=
  ∀ (p : PortId) (s : State),
    ((s.port p).train.state = .offering → ∃ t, exec (.offeringLimit p) s = .next t ∧ AttemptFailed p .offerTimeout false s t) ∧
    ((s.port p).train.state = .resolving → NoDownshiftTest p s →
      ∃ t, exec (.resolvingLimit p) s = .next t ∧ (t.port p).res = (s.port p).res ∧
        AttemptFailed p .resolveTimeout ((s.port p).train.grade.any fourPairGrade) s t) ∧
    ((s.port p).train.state = .qualifying → NoDownshiftTest p s →
      ∃ t, exec (.qualifyingLimit p) s = .next t ∧ (t.port p).res = (s.port p).res ∧
        AttemptFailed p .qualifyTimeout ((s.port p).train.grade.any fourPairGrade) s t) ∧
    ((s.port p).train.state = .resolving → (s.port p).res.listening = true → NoDownshiftTest p s →
      ∃ t, exec (.crossingListenLimit p) s = .next t ∧
        (t.port p).res = { (s.port p).res with missing := some ⟨true, true, false, false⟩ } ∧
        AttemptFailed p .pairMissing ((s.port p).train.grade.any fourPairGrade) s t) ∧
    (∀ g, (s.port p).train.state = .resolving → (s.port p).res.listening = false → (s.port p).res.identified = false →
      (s.port p).train.grade = some g → NoDownshiftTest p s →
      ∃ t, exec (.identificationLimit p) s = .next t ∧
        (t.port p).res = { (s.port p).res with missing := (some
          ⟨!(identifiedRecord (s.port p).res.ident.a), !(identifiedRecord (s.port p).res.ident.b),
            fourPairGrade g && !(identifiedRecord (s.port p).res.ident.c),
            fourPairGrade g && !(identifiedRecord (s.port p).res.ident.d)⟩) } ∧
        AttemptFailed p .pairMissing (fourPairGrade g) s t)

/-- R18, R38, R39, R42, R67: every four-pair failure that reaches the attempts setting takes the first downshift test, whichever
command brings it: a FAULTY pair C or D sets downshift, two SOUND ones return the count to 0, and otherwise a DOWNSHIFT request for
the UNKNOWN ones is queued, merged into the waiting entry, queued in the place of the youngest waiting BACKGROUND entry, or noted as
QUEUE_FULL. That a SOURCE port whose skew test fails has sent PROBED is deduced (assumption log 37). -/
def Obligations.FirstDownshiftTestReadsTheHealthOfCAndD : Prop :=
  (∀ (p : PortId) (g : Grade) (cause : FailureCause) (s : State),
    ((s.port p).train.state = .resolving ∨ (s.port p).train.state = .qualifying) → (s.port p).train.grade = some g →
    (g = .G3 ∨ g = .G4) → (cause = .resolveTimeout ∨ cause = .skewLimit ∨ cause = .pairMissing ∨ cause = .qualifyTimeout) →
    s.setup.downshiftEnable = true → min 15 ((s.port p).train.fourPair + 1) = s.setup.downshiftAttempts →
    ∀ alerted : Summary,
      alerted = (if (s.port p).train.runAlerted = false ∧ 8 ≤ min 15 ((s.port p).train.consecutive + 1)
        then s.summary.add (.trainFailed p) else s.summary) →
    (((s.port p).train.health.c = .faulty ∨ (s.port p).train.health.d = .faulty) →
      OnlyPortAndEvents p s (failAttempt p cause s) ∧ (failAttempt p cause s).summary = alerted.add (.downshift p) ∧
        FailureNoted p cause s (failAttempt p cause s) ∧ ((failAttempt p cause s).port p).train.state = .backoff ∧
        ((failAttempt p cause s).port p).train.downshift = true ∧ ((failAttempt p cause s).port p).train.fourPair = 0) ∧
    ((s.port p).train.health.c = .sound → (s.port p).train.health.d = .sound →
      OnlyPortAndEvents p s (failAttempt p cause s) ∧ (failAttempt p cause s).summary = alerted ∧
        FailureNoted p cause s (failAttempt p cause s) ∧ ((failAttempt p cause s).port p).train.state = .backoff ∧
        ((failAttempt p cause s).port p).train.downshift = (s.port p).train.downshift ∧
        ((failAttempt p cause s).port p).train.fourPair = 0) ∧
    ((s.port p).train.health.c ≠ .faulty → (s.port p).train.health.d ≠ .faulty →
        ((s.port p).train.health.c = .unknown ∨ (s.port p).train.health.d = .unknown) →
      ∀ (r : Entry), r = ⟨p, ⟨false, false, (s.port p).train.health.c == .unknown, (s.port p).train.health.d == .unknown⟩,
          s.setup.autoReach, s.setup.autoAveraging, false, .urgent, .downshift, none, s.arrival, none⟩ →
      ((∀ e ∈ s.queue, e.target ≠ p) → s.queue.length < 16 →
        ∃ u, failAttempt p cause s = react u ∧ AwaitsDownshiftCheck p cause s u ∧ u.summary = alerted ∧
          OnlyPortAndEvents p { s with queue := insertEntry r s.queue, arrival := s.arrival + 1 } u) ∧
      (∀ e, waitingFor p s = some e →
        ∃ u, failAttempt p cause s = react u ∧ AwaitsDownshiftCheck p cause s u ∧ u.summary = alerted ∧
          OnlyPortAndEvents p { s with queue := insertEntry { e with
            pairs := e.pairs.union r.pairs, reach := longerReach e.reach r.reach
            averaging := largerAveraging e.averaging r.averaging, priority := .urgent
            origin := if e.priority = .urgent then e.origin else .downshift } (withoutTarget p s.queue) } u) ∧
      (∀ b w, (∀ e ∈ s.queue, e.target ≠ p) → 16 ≤ s.queue.length → b ∈ s.queue → b.holder = none → b.priority = .background →
          (∀ x ∈ s.queue, x.holder = none → x.priority = .background → x = b ∨ x.stamp < b.stamp) →
          w = { s with queue := insertEntry r (withoutTarget b.target s.queue), arrival := s.arrival + 1 } →
        ∃ u, failAttempt p cause s = react u ∧ AwaitsDownshiftCheck p cause s u ∧ u.summary = alerted ∧
          OnlyPortAndEvents p
            (if (b.tag = some s.sweep.tag ∧ s.sweep.fields.isSome) ∨ s.sweep.status = .waitingSpace then sweepAdvance w else w) u) ∧
      ((∀ e ∈ s.queue, e.target ≠ p) → 16 ≤ s.queue.length → (∀ e ∈ s.queue, e.holder = none → e.priority ≠ .background) →
        OnlyPortAndEvents p s (failAttempt p cause s) ∧ (failAttempt p cause s).summary = alerted.add (.diagDone p) ∧
          ((failAttempt p cause s).port p).store.attempt = some .queueFull ∧
          ((failAttempt p cause s).port p).train.fourPair = 0 ∧
          ((failAttempt p cause s).port p).train.downshiftCheck = (s.port p).train.downshiftCheck ∧
          ((failAttempt p cause s).port p).train.state = (if (s.port p).front.energy then .settling else .dormant)))) ∧
  (∀ (p : PortId) (s : State),
    ((s.port p).train.state = .qualifying → exec (.qualifyingLimit p) s = .next (failAttempt p .qualifyTimeout s)) ∧
    ((s.port p).train.state = .resolving → exec (.resolvingLimit p) s = .next (failAttempt p .resolveTimeout s)) ∧
    ((s.port p).train.state = .resolving → (s.port p).res.listening = true →
      ∃ w, FailsWith p .pairMissing s w ∧ exec (.crossingListenLimit p) s = .next (failAttempt p .pairMissing w)) ∧
    ((s.port p).train.state = .resolving → (s.port p).res.listening = false → (s.port p).res.identified = false →
      ∃ w, FailsWith p .pairMissing s w ∧ exec (.identificationLimit p) s = .next (failAttempt p .pairMissing w)) ∧
    (∀ x q a b c d, (s.port p).train.state = .resolving → (s.port p).res.listening = false → (s.port p).res.probing = true →
      (s.port p).res.probesOut.get x = true → (s.port p).res.qp.get x = none → q ≤ 6143 →
      (s.port p).res.qp.set x (some q) = ⟨some a, some b, some c, some d⟩ →
      (∃ k ∈ [a, b, c, d], min (min a b) (min c d) + s.setup.skewLimit < k) →
      ∃ w, FailsWith p .skewLimit s w ∧ exec (.probeReturn p x q) s = .next (failAttempt p .skewLimit w)))

/-! ### Pair resolution, UP and backoff -/

/-- R30: hearings build the identification record of a pair; the record of an identified pair does not change, and a hearing that comes
after identification is complete, or on a pair that is not of the grade, is not decoded. -/
def Obligations.IdentificationHearingsBuildThePairsRecord : Prop :=
  ∀ (p : PortId) (x letter : Pair) (inverted : Bool) (g : Grade) (s : State), (s.port p).train.state = .resolving →
    (s.port p).res.listening = false → (s.port p).train.grade = some g →
    ((s.port p).res.identified = true → exec (.identificationHearing p x letter inverted) s = .next s) ∧
    (fourPairGrade g = false → (x = .C ∨ x = .D) → exec (.identificationHearing p x letter inverted) s = .next s) ∧
    ((s.port p).res.identified = false → (fourPairGrade g = true ∨ x = .A ∨ x = .B) →
      ((s.port p).res.ident.get x = none →
        exec (.identificationHearing p x letter inverted) s = .next (s.modPort p (fun pt =>
          { pt with res.ident := pt.res.ident.set x (some ⟨letter, inverted, 1⟩) }))) ∧
      (∀ r, (s.port p).res.ident.get x = some r → r.count = 1 → (r.letter ≠ letter ∨ r.inverted ≠ inverted) →
        exec (.identificationHearing p x letter inverted) s = .next (s.modPort p (fun pt =>
          { pt with res.ident := pt.res.ident.set x (some ⟨letter, inverted, 1⟩) }))) ∧
      (∀ y, (s.port p).res.ident.get x = some ⟨letter, inverted, 1⟩ → x ≠ y → (fourPairGrade g = true ∨ y = .A ∨ y = .B) →
          identifiedRecord ((s.port p).res.ident.get y) = false →
        exec (.identificationHearing p x letter inverted) s = .next (s.modPort p (fun pt =>
          { pt with res.ident := pt.res.ident.set x (some ⟨letter, inverted, 2⟩) }))) ∧
      (∀ r y, (s.port p).res.ident.get x = some r → r.count = 2 → (fourPairGrade g = true ∨ y = .A ∨ y = .B) →
          identifiedRecord ((s.port p).res.ident.get y) = false →
        exec (.identificationHearing p x letter inverted) s = .next s))

/-- R30, R31, R33, R35, R29: the hearing that completes identification, on whichever pair it comes, fixes crossings and polarities and
checks the map: valid, it sends IDENTIFIED (and DONE at G1 and G2); invalid, it fails with the pairs of the bad groups missing. At G3 and
G4 probing starts in that step where the SOURCE port has heard IDENTIFIED before, or the FOLLOW port PROBED. That the patterns go out
with their new markers in this step, and that the link follows them where DONE has been heard before, is deduced (assumption log 37);
the pair the crossing assigns is the model's reading (log 13), and the first probe's moment its choice (log 30). -/
def Obligations.CompletedIdentificationFixesMapAndPolarity : Prop :=
  ∀ (p : PortId) (x letter a b : Pair) (inverted ia ib : Bool) (rc rd : Option IdRecord) (g : Grade) (s : State),
    (s.port p).train.state = .resolving → (s.port p).res.listening = false → (s.port p).res.identified = false →
    (s.port p).train.grade = some g → (s.port p).res.ident.get x = some ⟨letter, inverted, 1⟩ →
    (s.port p).res.ident.set x (some ⟨letter, inverted, 2⟩) = ⟨some ⟨a, ia, 2⟩, some ⟨b, ib, 2⟩, rc, rd⟩ →
    (fourPairGrade g = false → (x = .A ∨ x = .B) →
      (((a = .A ∧ b = .B) ∨ (a = .B ∧ b = .A)) →
        ∃ t, exec (.identificationHearing p x letter inverted) s = .next t ∧ SameButPort p s t ∧
          (t.port p).res.abCrossed = some (a == .B) ∧ (t.port p).res.cdCrossed = none ∧
          (t.port p).res.polarity = ⟨some ia, some ib, none, none⟩ ∧ (t.port p).res.identified = true ∧
          (t.port p).res.checksPassed = true ∧
          (t.port p).train.state = (if (s.port p).res.partnerDone then .qualifying else .resolving) ∧
          (t.port p).front = { (s.port p).front with
            launched := .patterns ⟨true, true, false, false⟩ ⟨true, (s.port p).res.probedSent, true⟩ ::
              if (s.port p).res.partnerDone then [.link g (if a = .B then .B else .A)] else [] } ∧
          ((s.port p).res.partnerDone = false → (t.port p).timers.patternRepeat = ⟨true, 0, 1000⟩)) ∧
      (¬((a = .A ∧ b = .B) ∨ (a = .B ∧ b = .A)) →
        ∃ t, exec (.identificationHearing p x letter inverted) s = .next t ∧ AttemptFailed p .pairMissing false s t ∧
          (t.port p).res.missing = some ⟨true, true, false, false⟩)) ∧
    (∀ c d ic id, fourPairGrade g = true → rc = some ⟨c, ic, 2⟩ → rd = some ⟨d, id, 2⟩ →
      ∀ ab cd : Bool, (ab = true ↔ (a = .A ∧ b = .B) ∨ (a = .B ∧ b = .A)) →
        (cd = true ↔ (c = .C ∧ d = .D) ∨ (c = .D ∧ d = .C)) →
      (ab = true → cd = true →
        ∃ t, exec (.identificationHearing p x letter inverted) s = .next t ∧ SameButPort p s t ∧
          (t.port p).res.abCrossed = some (a == .B) ∧ (t.port p).res.cdCrossed = some (c == .D) ∧
          (t.port p).res.polarity = ⟨some ia, some ib, some ic, some id⟩ ∧ (t.port p).res.identified = true ∧
          (t.port p).res.checksPassed = (s.port p).res.checksPassed ∧ (t.port p).train = (s.port p).train ∧
          (t.port p).front = { (s.port p).front with launched := [.patterns ⟨true, true, true, true⟩
            ⟨true, (s.port p).res.probedSent, (s.port p).res.checksPassed⟩] } ∧
          (t.port p).timers.patternRepeat = ⟨true, 0, 1000⟩ ∧
          (t.port p).res.probing = ((s.port p).res.probing ||
            ((allQp (s.port p).res).isNone &&
              (((s.port p).train.role == some .source && (s.port p).res.partnerIdentified) ||
                ((s.port p).train.role == some .follow && (s.port p).res.partnerProbed)))) ∧
          ((s.port p).res.probing = false → (t.port p).res.probing = true →
            (t.port p).timers.probeRepeat = ⟨true, 1000, 1000⟩)) ∧
      (ab = false ∨ cd = false →
        (∃ w, FailsWith p .pairMissing s w ∧ (w.port p).res.missing = some ⟨!ab, !ab, !cd, !cd⟩ ∧
          exec (.identificationHearing p x letter inverted) s = .next (failAttempt p .pairMissing w)) ∧
        (NoDownshiftTest p s →
          ∃ t, exec (.identificationHearing p x letter inverted) s = .next t ∧ AttemptFailed p .pairMissing true s t ∧
            (t.port p).res.missing = some ⟨!ab, !ab, !cd, !cd⟩)))

/-- R33, R35, R29: the partner's markers are remembered; IDENTIFIED lets an identified SOURCE port probe, PROBED an identified FOLLOW
port, and DONE completes a port whose own checks have passed: it launches the link on the pair the crossing assigns (the model's
reading, assumption log 13). A timer that stops here stands at 0, which is the model's choice (assumption log 38). -/
def Obligations.PartnerMarkersStartProbingAndCompleteResolution : Prop :=
  ∀ (p : PortId) (s : State), (s.port p).train.state = .resolving → (s.port p).res.listening = false →
    (∃ t, exec (.identifiedMarkerHeard p) s = .next t ∧ SameButPort p s t ∧ (t.port p).train = (s.port p).train ∧
      (t.port p).res = { (s.port p).res with
        partnerIdentified := true
        probing := (s.port p).res.probing ||
          ((s.port p).train.grade.any fourPairGrade && (s.port p).res.identified && (allQp (s.port p).res).isNone &&
            ((s.port p).train.role == some .source || ((s.port p).train.role == some .follow && (s.port p).res.partnerProbed))) }) ∧
    (∃ t, exec (.probedMarkerHeard p) s = .next t ∧ SameButPort p s t ∧ (t.port p).train = (s.port p).train ∧
      (t.port p).res = { (s.port p).res with
        partnerProbed := true
        probing := (s.port p).res.probing ||
          ((s.port p).train.grade.any fourPairGrade && (s.port p).res.identified && (allQp (s.port p).res).isNone &&
            ((s.port p).train.role == some .follow ||
              ((s.port p).train.role == some .source && (s.port p).res.partnerIdentified))) }) ∧
    ((s.port p).res.checksPassed = false →
      exec (.doneMarkerHeard p) s = .next (s.modPort p (fun pt => { pt with res.partnerDone := true }))) ∧
    (∀ g, (s.port p).res.checksPassed = true → (s.port p).train.grade = some g →
      ∃ t, exec (.doneMarkerHeard p) s = .next t ∧ SameButPort p s t ∧
        (t.port p).train = { (s.port p).train with
          state := .qualifying
          errorFree := ⟨!(s.port p).train.shadowed, 0, if fourPairGrade g then 40000 else 10000⟩ } ∧
        (t.port p).timers = { TrainTimers.fresh with qualifying := ⟨true, 0, 1000000⟩ } ∧
        (t.port p).front = { (s.port p).front with
          launched := [.link g (match (s.port p).res.abCrossed with
            | some true => .B
            | some false => .A
            | none => if (s.port p).train.crossover = .straight then .A else .B)] } ∧
        (t.port p).res = { (s.port p).res with partnerDone := true })

/-- R33, R34, R35: a probe return beyond 6143 quarter-ticks is not heard; any other records Qp; with the fourth the skews are each Qp
less the smallest, and one above the skew limit fails the attempt. That a SOURCE port's PROBED and the DONE of a port whose checks pass
go out with the patterns in this step, and that the link follows where DONE has been heard before, is deduced (assumption log 37); the
pair the crossing assigns is the model's reading (log 13). -/
def Obligations.ProbeReturnsRecordQpAndTakeTheSkewTest : Prop :=
  ∀ (p : PortId) (x : Pair) (q : Nat) (s : State), (s.port p).train.state = .resolving → (s.port p).res.listening = false →
    (s.port p).res.probing = true → (s.port p).res.probesOut.get x = true → (s.port p).res.qp.get x = none →
    (6143 < q → exec (.probeReturn p x q) s = .next s) ∧
    (∀ y, q ≤ 6143 → x ≠ y → (s.port p).res.qp.get y = none →
      exec (.probeReturn p x q) s = .next (s.modPort p (fun pt =>
        { pt with res.qp := pt.res.qp.set x (some q), res.probesOut := pt.res.probesOut.set x false }))) ∧
    (∀ a b c d, q ≤ 6143 → (s.port p).res.qp.set x (some q) = ⟨some a, some b, some c, some d⟩ →
      (∀ g, (s.port p).train.grade = some g →
          (∀ k ∈ [a, b, c, d], k ≤ min (min a b) (min c d) + s.setup.skewLimit) →
        ∃ t, exec (.probeReturn p x q) s = .next t ∧ SameButPort p s t ∧
          (t.port p).res = { (s.port p).res with
            qp := ⟨some a, some b, some c, some d⟩
            probesOut := (s.port p).res.probesOut.set x false
            skew := ⟨some (a - min (min a b) (min c d)), some (b - min (min a b) (min c d)),
              some (c - min (min a b) (min c d)), some (d - min (min a b) (min c d))⟩
            probing := false
            probedSent := (s.port p).train.role == some .source
            checksPassed := true } ∧
          (t.port p).train.state = (if (s.port p).res.partnerDone then .qualifying else .resolving) ∧
          (t.port p).front = { (s.port p).front with
            launched := .patterns (if g = .G3 ∨ g = .G4 then ⟨true, true, true, true⟩ else ⟨true, true, false, false⟩)
                ⟨(s.port p).res.identified, (s.port p).train.role == some .source, true⟩ ::
              if (s.port p).res.partnerDone then
                [.link g (match (s.port p).res.abCrossed with
                  | some true => .B
                  | some false => .A
                  | none => if (s.port p).train.crossover = .straight then .A else .B)]
              else [] } ∧
          ((s.port p).res.partnerDone = false → (t.port p).timers.patternRepeat = ⟨true, 0, 1000⟩)) ∧
      ((∃ k ∈ [a, b, c, d], min (min a b) (min c d) + s.setup.skewLimit < k) → NoDownshiftTest p s →
        ∃ t, exec (.probeReturn p x q) s = .next t ∧
          AttemptFailed p .skewLimit ((s.port p).train.grade.any fourPairGrade)
            (s.modPort p (fun pt => { pt with front := frontAtFailure p .skewLimit s })) t ∧
          (t.port p).res.qp = ⟨some a, some b, some c, some d⟩ ∧
          (t.port p).res.skew = ⟨some (a - min (min a b) (min c d)), some (b - min (min a b) (min c d)),
            some (c - min (min a b) (min c d)), some (d - min (min a b) (min c d))⟩))

/-- R32, R29: the front end notes the partner's signal on pair A or B in every state; a listening port runs 2 ms for a pair while the
signal stands on it alone, and the first pair to qualify fixes the crossing and sends the link at the grade on the other pair. A timer
that stops here stands at 0, which is the model's choice (assumption log 38). -/
def Obligations.ListeningPairsQualifyWhenTheyStandAlone : Prop :=
  ∀ (p : PortId) (s : State),
    (∀ x present front, front = (match x with
        | ListenPair.A => { (s.port p).front with signalA := present }
        | ListenPair.B => { (s.port p).front with signalB := present }) →
      ((s.port p).train.state = .resolving → (s.port p).res.listening = true →
        exec (.partnerLinkSignalChange p x present) s = .next (s.modPort p (fun pt =>
          { pt with
            front := front
            timers := { pt.timers with
              qualifyA := if front.signalA = true ∧ front.signalB = false then
                  (if pt.timers.qualifyA.running then pt.timers.qualifyA else ⟨true, 0, 2000⟩) else ⟨false, 0, 0⟩
              qualifyB := if front.signalB = true ∧ front.signalA = false then
                  (if pt.timers.qualifyB.running then pt.timers.qualifyB else ⟨true, 0, 2000⟩) else ⟨false, 0, 0⟩ } }))) ∧
      ((s.port p).train.state ≠ .resolving ∨ (s.port p).res.listening = false →
        exec (.partnerLinkSignalChange p x present) s = .next (s.modPort p (fun pt => { pt with front := front })))) ∧
    (∀ x g, (s.port p).train.state = .resolving → (s.port p).res.listening = true →
        (match x with | ListenPair.A => (s.port p).timers.qualifyA.running | .B => (s.port p).timers.qualifyB.running) = true →
        (s.port p).train.grade = some g →
      ∃ t, exec (.pairQualifies p x) s = .next t ∧ SameButPort p s t ∧
        (t.port p).train = { (s.port p).train with
          state := .qualifying
          errorFree := ⟨!(s.port p).train.shadowed, 0, if fourPairGrade g then 40000 else 10000⟩ } ∧
        (t.port p).res = { (s.port p).res with abCrossed := some (x == .A) } ∧
        (t.port p).front = { (s.port p).front with
          launched := [.link g (match x with | ListenPair.A => .B | ListenPair.B => .A)] } ∧
        (t.port p).timers = { TrainTimers.fresh with qualifying := ⟨true, 0, 1000000⟩ })

/-- R15, R16, R46, R50, R52: the error-free target brings the port UP with its counts at 0, LINK_UP raised and the watch started; with
energy already absent it drops at once under ENERGY_LOSS, and starts the silence timer without. A timer that stops here stands at 0,
which is the model's choice (assumption log 38). The error-free timer keeps its value (the same log). -/
def Obligations.ErrorFreeTargetBringsThePortUp : Prop :=
  ∀ (p : PortId) (s : State), (s.port p).train.state = .qualifying → (s.port p).train.shadowed = false →
    (((s.port p).front.energy = true ∨ (s.criteria p).energyLoss = false) →
      ∃ t, exec (.errorFreeTarget p) s = .next t ∧ OnlyPortAndEvents p s t ∧ t.summary = s.summary.add (.linkUp p) ∧
        (t.port p).train = { (s.port p).train with
          state := .up, consecutive := 0, fourPair := 0, runAlerted := false
          errorFree := { (s.port p).train.errorFree with running := false } } ∧
        (t.port p).watch = { (s.port p).watch with
          condition := .counting, window := ⟨true, 0, s.setup.window⟩, symbol := 0, idle := 0, margin := 0
          silence := if (s.port p).front.energy then ⟨false, 0, 0⟩ else ⟨true, 0, 100000⟩ } ∧
        (t.port p).res = (s.port p).res ∧ (t.port p).store = (s.port p).store ∧ (t.port p).front = (s.port p).front) ∧
    ((s.port p).front.energy = false → (s.criteria p).energyLoss = true →
      ∃ t, exec (.errorFreeTarget p) s = .next t ∧ OnlyPortAndEvents p s t ∧
        t.summary = (s.summary.add (.linkUp p)).add (.linkDown p) ∧ (t.port p).train.lastDrop = some .energyLoss ∧
        (t.port p).train.consecutive = 0 ∧ (t.port p).train.fourPair = 0 ∧
        (t.port p).train.state = (if s.setup.diagnose.has p then .held else .dormant))

/-! ### Requests: MEASURE, SWEEP, CANCEL -/

/-- R62 to R65, R174: a MEASURE in RUN is taken by the first condition that holds: a held entry, a DISABLED port, a waiting entry
(merged), a full queue, or room for a new entry. -/
def Obligations.MeasureIsMergedQueuedOrRefused : Prop :=
  ∀ (p : PortId) (pairs reach averaging intrusive : Byte) (r : Reach) (via : Via) (s : State), RequestReady s →
    via.broadcast = false → s.station.phase = .run → reachOf reach = some r →
    (heldFor p s = true →
      exec (.measure via (byteOf p.val) pairs reach averaging intrusive) s =
        .next (reply 1 (.refused .busy) (frameEnded s))) ∧
    (heldFor p s = false → (s.port p).train.state = .disabled →
      exec (.measure via (byteOf p.val) pairs reach averaging intrusive) s =
        .next (reply 1 (.refused .portDisabled) (frameEnded s))) ∧
    (heldFor p s = false → (s.port p).train.state ≠ .disabled →
      (∀ e, waitingFor p s = some e →
        exec (.measure via (byteOf p.val) pairs reach averaging intrusive) s =
          .next (reply 1 (.accepted (averagingAdjusted averaging.toNat)) (react { frameEnded s with
            queue := insertEntry
              { e with
                pairs := e.pairs.union (measuredPairs pairs), reach := longerReach e.reach r
                averaging := largerAveraging e.averaging (averagingOf averaging.toNat)
                intrusive := e.intrusive || intrusive != 0
                priority := if e.priority = .background then .normal else e.priority
                origin := if e.priority = .background then .console else e.origin }
              (withoutTarget p s.queue) }))) ∧
      (waitingFor p s = none → s.queue.length < 16 →
        exec (.measure via (byteOf p.val) pairs reach averaging intrusive) s =
          .next (reply 1 (.accepted (averagingAdjusted averaging.toNat)) (react { frameEnded s with
            queue := insertEntry ⟨p, measuredPairs pairs, r, averagingOf averaging.toNat, intrusive != 0, .normal, .console, none,
              s.arrival, none⟩ s.queue
            arrival := s.arrival + 1 }))) ∧
      (waitingFor p s = none → 16 ≤ s.queue.length →
        exec (.measure via (byteOf p.val) pairs reach averaging intrusive) s =
          .next (reply 1 (.refused .queueFull) (frameEnded s))))

/-- R70 to R72: a sweep advance takes the first port of the set past the cursor by its condition, and ends the round where none is
left; a SWEEP with an empty set is refused, any other replaces the record, retires the old entries and advances, and so does the
period. A timer that stops here stands at 0, which is the model's choice (assumption log 38). -/
def Obligations.SweepsStartAdvanceAndRepeat : Prop :=
  (∀ (f : SweepFields) (s : State), s.sweep.fields = some f →
     ((∀ q, f.ports.has q = true → ¬∀ c, s.sweep.cursor = some c → c < q) →
       (f.period = 0 → sweepAdvance s =
         { s with sweep := { s.sweep with status := .finished, cursor := none, period := ⟨false, 0, 0⟩ } }) ∧
       (f.period ≠ 0 → sweepAdvance s =
         { s with sweep := { s.sweep with status := .waitingPeriod, cursor := none, period := ⟨true, 0, 1000000 * f.period⟩ } })) ∧
     (∀ p, f.ports.has p = true → (∀ c, s.sweep.cursor = some c → c < p) →
         (∀ q, f.ports.has q = true → (∀ c, s.sweep.cursor = some c → c < q) → p ≤ q) →
       (heldFor p s = true → sweepAdvance s = sweepAdvance { s with sweep := { s.sweep with cursor := some p } }) ∧
       (∀ e, heldFor p s = false → waitingFor p s = some e → sweepAdvance s = { s with
         sweep := { s.sweep with cursor := some p, status := .running }
         queue := insertEntry
           { e with pairs := ⟨true, true, true, true⟩, reach := longerReach e.reach f.reach,
                    averaging := largerAveraging e.averaging f.averaging, tag := some s.sweep.tag }
           (withoutTarget p s.queue) }) ∧
       (heldFor p s = false → waitingFor p s = none → s.queue.length < 16 → sweepAdvance s = { s with
         sweep := { s.sweep with cursor := some p, status := .running }
         queue := insertEntry ⟨p, ⟨true, true, true, true⟩, f.reach, f.averaging, false, .background, .sweep, some s.sweep.tag,
           s.arrival, none⟩ s.queue
         arrival := s.arrival + 1 }) ∧
       (heldFor p s = false → waitingFor p s = none → 16 ≤ s.queue.length → sweepAdvance s =
         { s with sweep := { s.sweep with status := .waitingSpace } }))) ∧
  ((∀ (hi lo reach averaging period : Byte) (r : Reach) (via : Via) (s : State), RequestReady s → via.broadcast = false →
       s.station.phase = .run → reachOf reach = some r →
     (portSetOf hi lo = PortSet.none →
       exec (.sweep via hi lo reach averaging period) s = .next (reply 2 (.refused .badTarget) (frameEnded s))) ∧
     (portSetOf hi lo ≠ PortSet.none →
       exec (.sweep via hi lo reach averaging period) s =
         .next (reply 2 (.accepted (averagingAdjusted averaging.toNat)) (react (sweepAdvance { frameEnded s with
           sweep := ⟨.running, s.sweep.tag + 1, some ⟨portSetOf hi lo, r, averagingOf averaging.toNat, period.toNat⟩, none,
             ⟨false, 0, 0⟩⟩
           queue := if s.sweep.fields.isSome then
               (s.queue.filter (fun e => !(decide (e.tag = some s.sweep.tag) && e.holder.isNone && decide (e.origin = .sweep)))).map
                 (fun e => if e.tag = some s.sweep.tag then { e with tag := none } else e)
             else s.queue }))))) ∧
   (∀ s : State, s.sweep.status = .waitingPeriod →
     exec .sweepPeriodExpiry s = .next (react (sweepAdvance
       { s with sweep := { s.sweep with status := .running, period := ⟨false, 0, 0⟩, cursor := none } }))))

/-- R69, R126, R127, R36, R41, R22, R71: the final outcome of a port's entry, waiting or held: the entry leaves; a COMPLETE or BUSY_LINE
outcome makes the record and sets pair health, the others keep both; the last attempt outcome is set and DIAG_DONE raised; a pending
downshift check takes the second test; CHANNEL or AWAIT goes, with re-entry where no reason is left; and the sweep advances when the
entry was its own or it waits for space. -/
def Obligations.FinalOutcomeEndsAnEntry : Prop :=
  (∀ (p : PortId) (e : Entry) (o : FinalOutcome) (s : State), entryFor p s = some e →
    ∃ (v : Port) (u : State),
      finalOutcome p o s =
        (if (e.tag = some s.sweep.tag ∧ s.sweep.fields.isSome) ∨ s.sweep.status = .waitingSpace then sweepAdvance u else u) ∧
      OnlyPortAndEvents p { s with queue := withoutTarget p s.queue } u ∧
      v = { s.port p with
        store := (match o with
          | .complete q prs =>
              { (s.port p).store with
                record := some ⟨q, e.origin, .complete, e.reach, e.averaging, prs⟩, attempt := some .complete }
          | .busyLine q prs =>
              { (s.port p).store with
                record := some ⟨q, e.origin, .busyLine, e.reach, e.averaging, prs⟩, attempt := some .busyLine }
          | .cancelled => { (s.port p).store with attempt := some .cancelled }
          | .portDisabled => { (s.port p).store with attempt := some .portDisabled }
          | .skippedLinkUp => { (s.port p).store with attempt := some .skippedLinkUp })
        train := { (s.port p).train with health := v.train.health, downshift := v.train.downshift,
                                         fourPair := v.train.fourPair, downshiftCheck := false } } ∧
      v.train.health = (match o with
        | .complete _ prs => PerPair.zip healthAfter (prs.map PairResult.verdict) (s.port p).train.health
        | .busyLine _ prs => PerPair.zip healthAfter (prs.map PairResult.verdict) (s.port p).train.health
        | .cancelled => (s.port p).train.health
        | .portDisabled => (s.port p).train.health
        | .skippedLinkUp => (s.port p).train.health) ∧
      ((s.port p).train.downshiftCheck = false →
        v.train.downshift = (s.port p).train.downshift ∧ v.train.fourPair = (s.port p).train.fourPair ∧
          u.summary = s.summary.add (.diagDone p)) ∧
      ((s.port p).train.downshiftCheck = true → v.train.fourPair = 0 ∧
        ((v.train.health.c = .faulty ∨ v.train.health.d = .faulty) →
          v.train.downshift = true ∧ u.summary = (s.summary.add (.diagDone p)).add (.downshift p)) ∧
        (v.train.health.c ≠ .faulty → v.train.health.d ≠ .faulty →
          v.train.downshift = (s.port p).train.downshift ∧ u.summary = s.summary.add (.diagDone p))) ∧
      ∀ h : HoldReasons,
        h = (if e.holder = none then { (s.port p).train.holds with await := false }
          else { (s.port p).train.holds with channel := false }) →
        ((s.port p).train.state ≠ .held ∨ h ≠ ⟨false, false, false⟩ →
          u.port p = { v with train := { v.train with holds := h } }) ∧
        ((s.port p).train.state = .held → h = ⟨false, false, false⟩ → TakesReEntry s.setup.wakeSettle v (u.port p))) ∧
  ∀ h : Health, healthAfter .good h = .sound ∧ healthAfter .mismatch h = .sound ∧ healthAfter .openEnd h = .faulty ∧
    healthAfter .short h = .faulty ∧ healthAfter .crossShort h = .faulty ∧ healthAfter .noLaunch h = .faulty ∧
    healthAfter .busy h = h ∧ healthAfter .notMeasured h = h

/-- R77, R78, R59, R72, R176: CANCEL, sent to the station or to destination 15, ends the waiting entry with CANCELLED, stops the
channel that holds the port's measurement, and ends the port's drop settle; with the all flag it does so for every port whose entry
stood when the request was taken (the model's reading, assumption log 8); with the sweep flag it ends the sweep first. A timer that
stops here stands at 0, which is the model's choice (assumption log 38). -/
def Obligations.CancelsEndWhatStandsForAPort : Prop :=
  (∀ (p : PortId) (s : State),
    (waitingFor p s ≠ none → cancelPort p s = cancelSettle p (finalOutcome p .cancelled s)) ∧
    (∀ ch m, waitingFor p s = none → (s.chan ch).meas = some m → m.port = p →
        (∀ n, (s.chan (otherChannel ch)).meas = some n → n.port ≠ p) →
      cancelPort p s = cancelSettle p (stopChannel ch .cancelled s)) ∧
    (waitingFor p s = none → (∀ ch m, (s.chan ch).meas = some m → m.port ≠ p) → cancelPort p s = cancelSettle p s) ∧
    ((s.port p).watch.dropSettle.running = false → cancelSettle p s = s) ∧
    ((s.port p).watch.dropSettle.running = true → SameButPort p s (cancelSettle p s) ∧
      ∀ h : HoldReasons, h = { (s.port p).train.holds with settle := false } →
        ((s.port p).train.state ≠ .held ∨ h ≠ ⟨false, false, false⟩ →
          (cancelSettle p s).port p = { s.port p with
            watch := { (s.port p).watch with dropSettle := ⟨false, 0, 0⟩ }
            train := { (s.port p).train with holds := h } }) ∧
        ((s.port p).train.state = .held → h = ⟨false, false, false⟩ →
          TakesReEntry s.setup.wakeSettle
            { s.port p with watch := { (s.port p).watch with dropSettle := ⟨false, 0, 0⟩ } } ((cancelSettle p s).port p)))) ∧
  (∀ (via : Via) (p : PortId) (port : Byte) (other : BitVec 6) (s w : State), RequestReady s →
    w = { frameEnded s with
      sweep := ⟨.none, s.sweep.tag, none, none, ⟨false, 0, 0⟩⟩
      queue := s.queue.map (fun e => if e.tag = some s.sweep.tag then { e with tag := none } else e) } →
    exec (.cancel via (byteOf p.val) other) s = .next (reply 3 (.accepted false) (react (cancelPort p (frameEnded s)))) ∧
    exec (.cancelAll via port other) s = .next (reply 3 (.accepted false) (react
      (allPorts.foldl (fun u q => if s.queue.any (fun e => e.target = q) then cancelPort q u else cancelSettle q u)
        (frameEnded s)))) ∧
    exec (.cancelSweep via false (byteOf p.val) other) s = .next (reply 3 (.accepted false) (react (cancelPort p w))) ∧
    exec (.cancelSweep via true port other) s = .next (reply 3 (.accepted false) (react
      (allPorts.foldl (fun u q => if s.queue.any (fun e => e.target = q) then cancelPort q u else cancelSettle q u) w))) ∧
    ((∀ ch, (s.chan ch).meas = none) → (∀ e ∈ s.queue, e.holder = none) → s.sweep.fields = none →
      ∃ u, exec (.cancelAll via port other) s = .next (reply 3 (.accepted false) (react u)) ∧ u.queue = [] ∧
        ∀ q, (u.port q).watch.dropSettle.running = false))

/-- R79, R96 to R98, R88, R99, R150, R158, Table 5-6, Table 5-7: a stop at a channel by its phase: nothing at IDLE and RELEASING;
pending while the CLAIM is on the line or the capture is open; at once in PREPARING, CLAIMING, WAIT_YIELD and in a gap or recovery of
BURSTING, where CANCELLED and PORT_DISABLED are the entry's final outcome, PREEMPTED and WITHDRAWN give it back, a sent claim is
released and an unsent one ends. A final outcome discards the sums and results and keeps settled, position and shots launched; a
giving back also discards the position and returns shots launched to 0. Of two outcomes PORT_DISABLED comes first, then CANCELLED,
then the earlier. That a timer which stops stands at 0 and that a released claim's timers go on without effect is the model's choice
(assumption log 38); what a channel keeps of an ended measurement is inferred from the rules (log 39). -/
def Obligations.StopsTakeEffectByPhaseAndOutcome : Prop :=
  (∀ (ch : ChannelId) (o : StopOutcome) (s : State),
    ((s.chan ch).phase = .idle ∨ (s.chan ch).phase = .releasing → stopChannel ch o s = s) ∧
    ((s.chan ch).phase = .claiming → (∃ f, s.line.onLine = some f ∧ f.frame.isFor .claim ch = true) →
      stopChannel ch o s = s.modChan ch (fun c => { c with stop := some (mergeStop (s.chan ch).stop o) })) ∧
    ((s.chan ch).phase = .bursting → (s.chan ch).stage = .capture →
      stopChannel ch o s = s.modChan ch (fun c => { c with stop := some (mergeStop (s.chan ch).stop o) })) ∧
    (((s.chan ch).phase = .preparing ∨ (s.chan ch).phase = .waitYield ∨
        ((s.chan ch).phase = .claiming ∧ ∀ f, s.line.onLine = some f → f.frame.isFor .claim ch = false) ∨
        ((s.chan ch).phase = .bursting ∧ (s.chan ch).stage ≠ .capture)) →
      StopTaken ch (mergeStop (s.chan ch).stop o) s (stopChannel ch o s))) ∧
  (∀ (ch : ChannelId) (o : StopOutcome) (input : CaptureInput) (s : State), (s.chan ch).phase = .bursting →
    (s.chan ch).stage = .capture → (s.chan ch).stop = some o →
    ∃ t, exec (.captureClose ch input) s = .next (react t) ∧ StopTaken ch o s t) ∧
  (∀ (ch : ChannelId) (s : State), (s.chan ch).phase = .waitYield →
    ∃ t, exec (.yieldLimit ch) s = .next (react t) ∧ StopTaken ch (mergeStop (s.chan ch).stop .withdrawn) s t) ∧
  ∀ (old : Option StopOutcome) (o x : StopOutcome),
    mergeStop none o = o ∧ mergeStop old .portDisabled = .portDisabled ∧ mergeStop (some .portDisabled) o = .portDisabled ∧
    (o ≠ .portDisabled → mergeStop (some .cancelled) o = .cancelled) ∧
    (old ≠ some .portDisabled → mergeStop old .cancelled = .cancelled) ∧
    (o = .preempted ∨ o = .withdrawn → x = .preempted ∨ x = .withdrawn → mergeStop (some x) o = x)

/-! ### Requests: TRAIN and RESET PORT -/

/-- R23, R24, R27, R17: RESTART, RESTART_FULL and FORCE: refused at a DISABLED or HELD port in RUN; elsewhere in RUN the port goes to
SETTLING with its counts at 0, an UP port by a CONSOLE drop; outside RUN the fields alone change; FORCE at a grade that is not
offered is refused BAD_GRADE, which the other two do not ask. That the settling clears the attempt's fields is the model's choice
(assumption log 12). -/
def Obligations.RestartsAndForceGoToSettling : Prop :=
  ∀ (via : Via) (p : PortId) (g : Grade) (s : State), RequestReady s → via.broadcast = false →
    (∀ c f forced, (c, f, forced) ∈ ([(.restart via (byteOf p.val), fun t => t, false),
        (.restartFull via (byteOf p.val), fun t => { t with downshift := false, forced := none }, false),
        (.force via (byteOf p.val) (gradeCode g), fun t => { t with forced := some g }, true)] :
          List (Instr × (Training → Training) × Bool)) →
      (forced = true → (g = .G1 ∨ g = .G2) ∧ (s.port p).train.offerMask.has g = true) →
      (s.station.phase = .run →
        ((s.port p).train.state = .disabled →
          exec c s = .next (reply 4 (.refused .portDisabled) (frameEnded s))) ∧
        ((s.port p).train.state = .held → exec c s = .next (reply 4 (.refused .busy) (frameEnded s))) ∧
        ((s.port p).train.state ≠ .disabled → (s.port p).train.state ≠ .held → (s.port p).train.state ≠ .up →
          ∃ u, exec c s = .next (reply 4 (.accepted false) u) ∧ SameButPort p (frameEnded s) u ∧
            EntersSettling s.setup.wakeSettle
              { s.port p with
                train := f { (s.port p).train with consecutive := 0, fourPair := 0, runAlerted := false } } (u.port p)) ∧
        ((s.port p).train.state = .up →
          ∃ u, exec c s = .next (reply 4 (.accepted false) u) ∧ OnlyPortAndEvents p (frameEnded s) u ∧
            u.summary = s.summary.add (.linkDown p) ∧ (u.port p).train.state = .settling ∧
            (u.port p).train.lastDrop = some .console ∧ (u.port p).train.consecutive = 0 ∧
            (u.port p).train.fourPair = 0 ∧ (u.port p).watch.condition = .off ∧
            (u.port p).train.forced = (f (s.port p).train).forced ∧
            (u.port p).train.downshift = (f (s.port p).train).downshift ∧
            (u.port p).store = { (s.port p).store with drops := countDrop (s.port p).store.drops .console })) ∧
      (s.station.phase ≠ .run →
        (((s.port p).train.consoleDisabled = true ∨ s.unserved p = true) →
          exec c s = .next (reply 4 (.refused .portDisabled) (frameEnded s))) ∧
        ((s.port p).train.consoleDisabled = false → s.unserved p = false →
          exec c s = .next (reply 4 (.accepted false) ((frameEnded s).modPort p (fun pt =>
            { pt with train := f { pt.train with consecutive := 0, fourPair := 0, runAlerted := false } })))))) ∧
    (∀ h, (s.station.phase = .run ∨ ((s.port p).train.consoleDisabled = false ∧ s.unserved p = false)) → (h = .G1 ∨ h = .G2) →
      (s.port p).train.offerMask.has h = false →
      exec (.force via (byteOf p.val) (gradeCode h)) s = .next (reply 4 (.refused .badGrade) (frameEnded s)))

/-- R25 to R28, R17, R79: OFFER and ENABLE by the port's state; DISABLE and RESET PORT, which end the port's waiting or held
measurement too. That an UP port's CONSOLE drop and every settling clear the attempt's fields is the model's choice (assumption log
12), and so are the seed, timers and outputs a RESET PORT leaves (log 4). A timer that stops here stands at 0, which is the model's
choice (assumption log 38). -/
def Obligations.OfferEnableDisableAndResetPort : Prop :=
  ∀ (via : Via) (p : PortId) (s : State), RequestReady s → via.broadcast = false →
    (∀ (grades pref : Byte) (r : RolePref), rolePrefOf pref = some r → (gradeSetOf grades).isEmpty = true →
      exec (.offer via (byteOf p.val) grades pref) s = .next (reply 4 (.refused .badGrade) (frameEnded s))) ∧
    (∀ (grades pref : Byte) (r : RolePref), rolePrefOf pref = some r → (gradeSetOf grades).isEmpty = false →
      (((s.port p).train.state = .offline ∨ (s.port p).train.state = .disabled ∨ (s.port p).train.state = .dormant ∨
          (s.port p).train.state = .held) →
        exec (.offer via (byteOf p.val) grades pref) s = .next (reply 4 (.accepted false) ((frameEnded s).modPort p (fun pt =>
          { pt with train := { pt.train with
            offerMask := gradeSetOf grades, rolePref := r, forced := none, downshift := false } })))) ∧
      (((s.port p).train.state = .settling ∨ (s.port p).train.state = .offering ∨ (s.port p).train.state = .resolving ∨
          (s.port p).train.state = .qualifying ∨ (s.port p).train.state = .backoff) →
        ∃ u, exec (.offer via (byteOf p.val) grades pref) s = .next (reply 4 (.accepted false) u) ∧
          SameButPort p (frameEnded s) u ∧ EntersSettling s.setup.wakeSettle
            { s.port p with train := { (s.port p).train with
              offerMask := gradeSetOf grades, rolePref := r, forced := none, downshift := false } } (u.port p)) ∧
      ((s.port p).train.state = .up →
        ∃ u, exec (.offer via (byteOf p.val) grades pref) s = .next (reply 4 (.accepted false) u) ∧
          OnlyPortAndEvents p (frameEnded s) u ∧ u.summary = s.summary.add (.linkDown p) ∧
          EntersSettling s.setup.wakeSettle
            { s.port p with
              train := { (s.port p).train with
                offerMask := gradeSetOf grades, rolePref := r, forced := none, downshift := false, lastDrop := some .console }
              watch := (u.port p).watch
              store := { (s.port p).store with drops := countDrop (s.port p).store.drops .console } } (u.port p) ∧
          (u.port p).watch = { (s.port p).watch with
            condition := .off, window := ⟨false, 0, 0⟩, symbol := 0, idle := 0, margin := 0, silence := ⟨false, 0, 0⟩ })) ∧
    (s.unserved p = true → exec (.enable via (byteOf p.val)) s = .next (reply 4 (.refused .portDisabled) (frameEnded s))) ∧
    (s.unserved p = false →
      ((s.port p).train.state ≠ .disabled →
        exec (.enable via (byteOf p.val)) s = .next (reply 4 (.accepted false) ((frameEnded s).modPort p (fun pt =>
          { pt with train := { pt.train with consoleDisabled := false } })))) ∧
      ((s.port p).train.state = .disabled →
        ∃ u, exec (.enable via (byteOf p.val)) s = .next (reply 4 (.accepted false) u) ∧ SameButPort p (frameEnded s) u ∧
          TakesReEntry s.setup.wakeSettle
            { s.port p with train := { (s.port p).train with consoleDisabled := false } } (u.port p))) ∧
    (((s.port p).train.state = .disabled ∨ (s.port p).train.state = .offline) →
      exec (.disable via (byteOf p.val)) s = .next (reply 4 (.accepted false) ((frameEnded s).modPort p (fun pt =>
        { pt with train := { pt.train with consoleDisabled := true } })))) ∧
    ((s.port p).train.state ≠ .disabled → (s.port p).train.state ≠ .offline →
      ∃ u, OnlyPortAndEvents p (frameEnded s) u ∧ (u.port p).train.state = .disabled ∧
        (u.port p).train.consoleDisabled = true ∧ AttemptCleared (u.port p).train ∧
        (u.port p).train.holds = ⟨false, false, false⟩ ∧ (u.port p).watch.dropSettle.running = false ∧
        u.summary = (if (s.port p).train.state = .up then s.summary.add (.linkDown p) else s.summary) ∧
        EndsMatter p s u (finalOutcome p .portDisabled u) .portDisabled (fun w =>
          exec (.disable via (byteOf p.val)) s = .next (reply 4 (.accepted false) (react w)))) ∧
    (∃ u, OnlyPortAndEvents p (frameEnded s) u ∧ (u.port p).front = (s.port p).front ∧
        (u.port p).res = Resolution.fresh ∧ (u.port p).watch = Watch.fresh ∧ (u.port p).store = PortStore.fresh ∧
        (u.port p).train = { Training.fresh with
          state := if (s.port p).train.state = .disabled then .disabled else if (s.port p).train.state = .offline then .offline
            else if (s.port p).front.energy then .settling else .dormant
          consoleDisabled := (s.port p).train.consoleDisabled, shadowed := (s.port p).train.shadowed
          lastDrop := if (s.port p).train.state = .up then some .console else none } ∧
        u.summary = (if (s.port p).train.state = .up then s.summary.add (.linkDown p) else s.summary) ∧
        EndsMatter p s u
          (if (∃ e, waitingFor p s = some e ∧ e.tag = some s.sweep.tag ∧ s.sweep.fields.isSome) ∨
              s.sweep.status = .waitingSpace then
            sweepAdvance { u with queue := withoutTarget p s.queue }
          else { u with queue := withoutTarget p s.queue }) .cancelled (fun w =>
          exec (.resetPort via (byteOf p.val)) s = .next (reply 9 (.accepted false) (react w))))

/-! ### Requests: queries -/

/-- R133, R177 to R182, R44: each query is answered with its page, byte for byte as Tables 10-5 to 10-7 order them, and changes nothing
but, for SUMMARY, the event summary; an event joins the summary, which holds it once, and places one ALERT when the summary was empty
and no ALERT waits, and none otherwise (R131, R132). The model's choices: yes is 0 and no 1 (assumption log 9), the line condition a
STATION page tells is BUSY (log 27), and a LENGTH page that is not available carries the empty set as its clamped byte (log 33). -/
def Obligations.QueriesReportAndChangeNothingElse : Prop :=
  (∀ (via : Via) (p : PortId) (s : State), RequestReady s → via.broadcast = false →
    exec (.querySummary via) s =
      .next (reply 5 (.data 0 (portSetBytes s.summary.linkUp ++ portSetBytes s.summary.linkDown ++
        portSetBytes s.summary.diagDone ++ portSetBytes s.summary.downshift ++ portSetBytes s.summary.trainFailed ++
        [setByte [s.summary.calFault, s.summary.selfLocked, s.summary.duplicate, s.summary.lineStuck, s.summary.overrun]]))
        { frameEnded s with summary := Summary.empty }) ∧
    (∀ page bytes, (page, bytes) ∈ ([
        (0, [trainStateCode (s.port p).train.state,
          setByte [(s.port p).train.holds.channel, (s.port p).train.holds.settle, (s.port p).train.holds.await],
          setByte [(s.port p).train.consoleDisabled, !decide (p.val < populationCount s.station.population),
            s.station.calFaults.has p],
          setByte [(s.port p).train.downshift, (s.port p).train.downshiftCheck, (s.port p).train.runAlerted,
            (s.port p).train.shadowed],
          setByte [(s.port p).train.offerMask.g1, (s.port p).train.offerMask.g2, (s.port p).train.offerMask.g3,
            (s.port p).train.offerMask.g4],
          rolePrefCode (s.port p).train.rolePref, ((s.port p).train.forced.map gradeCode).getD 255,
          ((s.port p).train.grade.map gradeCode).getD 255, ((s.port p).train.role.map roleCode).getD 255]),
        (1, [((s.port p).res.abCrossed.map (fun b => if b then 0 else 1)).getD 255,
          ((s.port p).res.cdCrossed.map (fun b => if b then 0 else 1)).getD 255,
          setByte [(s.port p).res.polarity.a.isSome, (s.port p).res.polarity.b.isSome, (s.port p).res.polarity.c.isSome,
            (s.port p).res.polarity.d.isSome],
          setByte [(s.port p).res.polarity.a.getD false, (s.port p).res.polarity.b.getD false,
            (s.port p).res.polarity.c.getD false, (s.port p).res.polarity.d.getD false],
          setByte [((s.port p).res.missing.map PerPair.a).getD false, ((s.port p).res.missing.map PerPair.b).getD false,
            ((s.port p).res.missing.map PerPair.c).getD false, ((s.port p).res.missing.map PerPair.d).getD false],
          healthCode (s.port p).train.health.a, healthCode (s.port p).train.health.b, healthCode (s.port p).train.health.c,
          healthCode (s.port p).train.health.d, ((s.port p).train.lastFailure.map failureCode).getD 255,
          ((s.port p).train.lastDrop.map dropCode).getD 255]),
        (2, [(s.port p).res.qp.a, (s.port p).res.qp.b, (s.port p).res.qp.c, (s.port p).res.qp.d].flatMap
          (fun q => (q.map wordBytes).getD [255, 255])),
        (3, [(s.port p).res.skew.a, (s.port p).res.skew.b, (s.port p).res.skew.c, (s.port p).res.skew.d].flatMap
          (fun q => (q.map wordBytes).getD [255, 255])),
        (4, watchCode (s.port p).watch.condition ::
          [((s.criteria p).symbolErrors, false), ((s.criteria p).idleErrors, false), ((s.criteria p).marginDips, true),
            ((s.criteria p).energyLoss, false), ((s.criteria p).lockLoss, true)].map (fun (on, dependent) =>
              if !on then 0 else if dependent && !((s.criteria p).symbolErrors || (s.criteria p).energyLoss) then 2 else 1))] :
          List (Byte × List Byte)) →
      exec (.queryPort via (byteOf p.val) page) s = .next (reply 5 (.data 1 (byteOf p.val :: bytes)) (frameEnded s))) ∧
    exec (.queryCounters via (byteOf p.val) 0) s =
      .next (reply 5 (.data 2 (byteOf p.val :: [(s.port p).store.drops.symbolErrors, (s.port p).store.drops.idleErrors,
        (s.port p).store.drops.marginDips, (s.port p).store.drops.energyLoss,
        (s.port p).store.drops.lockLoss].flatMap count16Bytes)) (frameEnded s)) ∧
    exec (.queryCounters via (byteOf p.val) 1) s =
      .next (reply 5 (.data 2 (byteOf p.val :: [(s.port p).store.drops.silence, (s.port p).store.drops.heldForMeasurement,
        (s.port p).store.drops.console].flatMap count16Bytes ++
        [byteOf (s.port p).train.consecutive, byteOf (s.port p).train.fourPair])) (frameEnded s)) ∧
    ((s.port p).store.record = none →
      exec (.queryDiagHead via (byteOf p.val)) s =
        .next (reply 5 (.data 3 [byteOf p.val, 0, 0, 255, 255, 255, 255, optByte attemptCode (s.port p).store.attempt,
          255, 255, 255, 255]) (frameEnded s)) ∧
      ∀ x, exec (.queryEcho via (byteOf p.val) (pairCode x) 5) s =
          .next (reply 5 (.data 4 [byteOf p.val, pairCode x, 0, 0, 255, 255, 255, 128, 0, 255, 255]) (frameEnded s)) ∧
        ∀ index, index.toNat < 5 → exec (.queryEcho via (byteOf p.val) (pairCode x) index) s =
          .next (reply 5 (.data 4 [byteOf p.val, pairCode x, 0, 0, 255, 255, 128, 0, 128, 255, 255]) (frameEnded s))) ∧
    (∀ r, (s.port p).store.record = some r →
      exec (.queryDiagHead via (byteOf p.val)) s =
        .next (reply 5 (.data 3 ([byteOf p.val] ++ count16Bytes r.sequence ++ [originCode r.origin,
          recordOutcomeCode r.outcome, reachCode r.reach, byteOf (averagingCount r.averaging),
          optByte attemptCode (s.port p).store.attempt, verdictCode r.pairs.a.verdict, verdictCode r.pairs.b.verdict,
          verdictCode r.pairs.c.verdict, verdictCode r.pairs.d.verdict])) (frameEnded s)) ∧
      ∀ x, exec (.queryEcho via (byteOf p.val) (pairCode x) 5) s =
          .next (reply 5 (.data 4 ([byteOf p.val, pairCode x] ++ count16Bytes r.sequence ++
            [verdictCode (r.pairs.get x).verdict] ++ ((r.pairs.get x).distance.map wordBytes).getD [255, 255] ++
            ((r.pairs.get x).launch.map signedWordBytes).getD [128, 0] ++
            [if (r.pairs.get x).truncated then 0 else 1, byteOf (r.pairs.get x).echoes.length])) (frameEnded s)) ∧
        ∀ index, index.toNat < 5 →
          ((r.pairs.get x).echoes.length ≤ index.toNat →
            exec (.queryEcho via (byteOf p.val) (pairCode x) index) s =
              .next (reply 5 (.data 4 ([byteOf p.val, pairCode x] ++ count16Bytes r.sequence ++
                [255, 255, 128, 0, 128, 255, 255])) (frameEnded s))) ∧
          ∀ e, (r.pairs.get x).echoes[index.toNat]? = some e →
            exec (.queryEcho via (byteOf p.val) (pairCode x) index) s =
              .next (reply 5 (.data 4 ([byteOf p.val, pairCode x] ++ count16Bytes r.sequence ++ wordBytes e.distance ++
                signedWordBytes e.amplitude ++ [signedByte e.ratio,
                  echoClassCode e.cls + (if e.positive then 0 else 8) + (if e.clamped then 16 else 0),
                  if e.cls = .junction then (e.junction.map byteOf).getD 255
                  else if e.cls = .crossShort then (e.partner.map pairCode).getD 255 else 255])) (frameEnded s))) ∧
    (((s.port p).train.state ≠ .up ∨ (s.port p).train.grade.any fourPairGrade = false) →
      exec (.queryLength via (byteOf p.val)) s =
        .next (reply 5 (.data 5 [byteOf p.val, 0, 255, 255, 255, 255, 255, 255, 255, 255, 0]) (frameEnded s))) ∧
    (∀ a b c d v cal, (s.port p).train.state = .up → (s.port p).train.grade.any fourPairGrade = true →
        (s.port p).res.qp = ⟨some a, some b, some c, some d⟩ → s.station.calibration = some v → v[p.val] = some cal →
      ∀ w : Nat → Nat → Nat × Bool,
        (∀ q q0, w q q0 = walkDistance s.setup.delay s.setup.segments[p.val] ((q - 96 - q0) * 250)) →
      exec (.queryLength via (byteOf p.val)) s =
        .next (reply 5 (.data 5 ([byteOf p.val, 1] ++ wordBytes (w a cal.q0.a).1 ++ wordBytes (w b cal.q0.b).1 ++
          wordBytes (w c cal.q0.c).1 ++ wordBytes (w d cal.q0.d).1 ++
          [setByte [(w a cal.q0.a).2, (w b cal.q0.b).2, (w c cal.q0.c).2, (w d cal.q0.d).2]])) (frameEnded s))) ∧
    exec (.queryStation via 0) s = .next (reply 5 (.data 6 [stationPhaseCode s.station.phase,
      if s.station.locked then 1 else 0, 1, if s.line.duplicate then 1 else 0, if s.budget.paced then 1 else 0,
      byteOf s.queue.length, byteOf (s.line.list.length + 1), phaseCode (s.chan 0).phase,
      ((s.chan 0).claim.map (fun l => claimStateCode l.state)).getD 255, phaseCode (s.chan 1).phase,
      ((s.chan 1).claim.map (fun l => claimStateCode l.state)).getD 255, byteOf s.view.length]) (frameEnded s)) ∧
    exec (.queryStation via 1) s = .next (reply 5 (.data 6 ([s.counters.voided, s.counters.transmitFaults,
      s.counters.checkFailures, s.counters.arbitrationLosses, s.counters.overruns,
      s.counters.lockedRefusals].flatMap count16Bytes)) (frameEnded s)) ∧
    (s.sweep.fields = none → exec (.queryStation via 2) s = .next (reply 5 (.data 6 (count16Bytes s.unknownReleases ++
      [sweepStatusCode s.sweep.status, s.sweep.tag, 255, 255, 255, 255, 255, 255])) (frameEnded s))) ∧
    (∀ f, s.sweep.fields = some f → exec (.queryStation via 2) s = .next (reply 5 (.data 6 (count16Bytes s.unknownReleases ++
      [sweepStatusCode s.sweep.status, s.sweep.tag] ++ portSetBytes f.ports ++ [reachCode f.reach,
        byteOf (averagingCount f.averaging), byteOf f.period, (s.sweep.cursor.map (fun c => byteOf c.val)).getD 255]))
      (frameEnded s))) ∧
    (∀ index : Byte, index.toNat ≤ 15 →
      (s.view.length ≤ index.toNat →
        exec (.queryClaimEntry via index) s =
          .next (reply 5 (.data 7 [index, 255, 255, 255, 255, 255, 255, 255, 255]) (frameEnded s))) ∧
      (∀ v, s.view[index.toNat]? = some v →
        exec (.queryClaimEntry via index) s =
          .next (reply 5 (.data 7 ([index, byteOf v.station.val, v.number, if v.active then 1 else 0, byteOf v.target.val,
            priorityCode v.priority, byteOf v.duration] ++ wordBytes ((v.expiry - s.now) / 64))) (frameEnded s))))) ∧
  (∀ st : PortSet, portSetBytes st =
    [setByte [st.has 8, st.has 9, st.has 10, st.has 11],
      setByte [st.has 0, st.has 1, st.has 2, st.has 3, st.has 4, st.has 5, st.has 6, st.has 7]]) ∧
  (∀ (b : Bool) (bs : List Bool), bs.length < 8 → (setByte (b :: bs)).toNat = (if b then 1 else 0) + 2 * (setByte bs).toNat) ∧
  (∀ (n : Nat) (c : Count16), n < 65536 → (wordBytes n).map BitVec.toNat = [n / 256, n % 256] ∧
    count16Bytes c = wordBytes c.toNat) ∧
  ∀ (e : Event) (s : State),
    raise e s = { s with
      summary := s.summary.add e
      line := { s.line with list :=
        if s.summary = Summary.empty ∧ (∀ f ∈ s.line.list, f.kind ≠ .alert) then insertFrame ⟨.alert, [], none, false⟩ s.line.list
        else s.line.list } } ∧
    (∀ x, (s.summary.add e).has x = true ↔ x = e ∨ s.summary.has x = true) ∧ Summary.empty.has e = false ∧
    (s.summary.has e = true → s.summary.add e = s.summary)

/-! ### Requests: SETUP, LOCK, CALIBRATE and the start of the station -/

/-- R187, R104: a SETUP in SETUP stores its item clamped to the range of Table 11-3, with the adjusted flag where that changed it; a
segment entry is stored as written, then each boundary below the one before it is raised to equal it. Every other item stays. -/
def Obligations.SetupStoresItsItemsInTheirRanges : Prop :=
  (∀ (via : Via) (s : State), RequestReady s → via.broadcast = false → s.station.phase = .setup →
     (∀ item lo hi put, (item, lo, hi, put) ∈ ([(7, 0, 63, fun u n => { u with alpha := n }),
         (10, 1, 47, fun u n => { u with mismatch := n }), (11, 1, 47, fun u n => { u with junctionLimit := n }),
         (12, 1, 63, fun u n => { u with cross := n }), (14, 1, 255, fun u n => { u with thresholdE := n }),
         (15, 1, 255, fun u n => { u with thresholdI := n }), (16, 1, 255, fun u n => { u with thresholdM := n }),
         (17, 0, 4, fun u n => { u with dropSettle := n }), (18, 0, 4, fun u n => { u with wakeSettle := n }),
         (22, 1, 7, fun u n => { u with downshiftAttempts := n }), (23, 8, 255, fun u n => { u with skewLimit := n }),
         (24, 1, 255, fun u n => { u with budgetWindow := n }), (26, 1, 15, fun u n => { u with paceTime := n }),
         (27, 1, 255, fun u n => { u with paceInterval := n })] : List (Nat × Nat × Nat × (Setup → Nat → Setup))) →
       ∀ v : Byte, exec (.setup via (byteOf item) [v]) s =
         .next (reply 6 (.accepted (decide (max lo (min hi v.toNat) ≠ v.toNat)))
           { frameEnded s with setup := put s.setup (max lo (min hi v.toNat)) })) ∧
     (∀ item lo hi put, (item, lo, hi, put) ∈ ([(8, 8, 1023, fun u n => { u with detect := n }),
         (9, 8, 1023, fun u n => { u with busy := n }), (25, 64, 65535, fun u n => { u with shotThreshold := n })] :
           List (Nat × Nat × Nat × (Setup → Nat → Setup))) →
       ∀ h l : Byte, exec (.setup via (byteOf item) [h, l]) s =
         .next (reply 6 (.accepted (decide (max lo (min hi (256 * h.toNat + l.toNat)) ≠ 256 * h.toNat + l.toNat)))
           { frameEnded s with setup := put s.setup (max lo (min hi (256 * h.toNat + l.toNat))) })) ∧
     (∀ cls h l : Byte, exec (.setup via 0 [cls, h, l]) s =
       .next (reply 6 (.accepted (decide (7 < cls.toNat) ||
           decide (max 3500 (min 7000 (256 * h.toNat + l.toNat)) ≠ 256 * h.toNat + l.toNat)))
         { frameEnded s with setup := { s.setup with
           delay := s.setup.delay.setIfInBounds (min 7 cls.toNat) (max 3500 (min 7000 (256 * h.toNat + l.toNat))) } })) ∧
     (∀ v : Byte, exec (.setup via 13 [v]) s =
       .next (reply 6 (.accepted (decide (max 8 (min 128 v.toNat) / 8 * 8 ≠ v.toNat)))
         { frameEnded s with setup := { s.setup with window := max 8 (min 128 v.toNat) / 8 * 8 } })) ∧
     (∀ (p : PortId) (v : Byte),
       exec (.setup via 5 [byteOf p.val, v]) s = .next (reply 6 (.accepted false) { frameEnded s with setup := { s.setup with
         criteria := s.setup.criteria.set p.val ⟨v.getLsbD 0, v.getLsbD 1, v.getLsbD 2, v.getLsbD 3, v.getLsbD 4⟩ } }) ∧
       exec (.setup via 6 [byteOf p.val, v]) s = .next (reply 6 (.accepted false) { frameEnded s with setup := { s.setup with
         diagnose := s.setup.diagnose.set p.val (v != 0) } })) ∧
     (∀ (v : Byte) (r : Reach), reachOf v = some r →
       exec (.setup via 19 [v]) s =
         .next (reply 6 (.accepted false) { frameEnded s with setup := { s.setup with autoReach := r } })) ∧
     (∀ v : Byte, exec (.setup via 20 [v]) s = .next (reply 6 (.accepted (averagingAdjusted v.toNat))
       { frameEnded s with setup := { s.setup with autoAveraging := averagingOf v.toNat } })) ∧
     (∀ v : Byte, exec (.setup via 21 [v]) s =
       .next (reply 6 (.accepted false) { frameEnded s with setup := { s.setup with downshiftEnable := v != 0 } }))) ∧
  (∀ (via : Via) (i : Fin 4) (p : PortId) (h l : Byte) (s : State), RequestReady s → via.broadcast = false →
     s.station.phase = .setup →
     ∃ w : Vector Segment 4, w = (s.setup.segments[p.val]).set i.val
         ⟨(256 * h.toNat + l.toNat) / 16, (256 * h.toNat + l.toNat) / 2 % 8, l.toNat % 2 == 1⟩ ∧
       ∃ b1 b2 b3 : Nat, b1 = max w[0].boundary w[1].boundary ∧ b2 = max b1 w[2].boundary ∧ b3 = max b2 w[3].boundary ∧
         exec (.setupSegmentEntry via i (byteOf p.val) h l) s =
           .next (reply 6 (.accepted (decide (b1 ≠ w[1].boundary ∨ b2 ≠ w[2].boundary ∨ b3 ≠ w[3].boundary)))
             { frameEnded s with setup := { s.setup with
               segments := s.setup.segments.set p.val (⟨#[w[0], { w[1] with boundary := b1 }, { w[2] with boundary := b2 },
                 { w[3] with boundary := b3 }], rfl⟩) } }))

/-- R184 to R186, R188, R5, R83: the ways into RUN (LOCK, the window's end, a locked station at the end of LISTEN or of calibration);
the end of LISTEN leads to CALIBRATING without calibration data and to SETUP with it, where the window starts at 0; CALIBRATE suspends
the window; calibration puts the first port on internal termination, and its end puts every port back on the line interface, stores
the data, marks ports, raises CAL_FAULT where one is marked, and leads to SETUP, or to RUN when locked; that SETUP goes on with the
window that CALIBRATE suspended, and starts one where none was. A timer that stops here stands at 0, which is the model's choice
(assumption log 38). -/
def Obligations.StationPhasesFollowTheStartSequence : Prop :=
  ((∀ (via : Via) (s : State), RequestReady s → s.station.phase = .setup →
     ∃ u, exec (.lock via) s = .next (reply 7 (.accepted false) (react u)) ∧
       RunEntered { frameEnded s with station := { s.station with locked := true } } u) ∧
   (∀ (via : Via) (s : State), RequestReady s → s.station.phase ≠ .setup → s.station.locked = true →
     exec (.lock via) s = .next (reply 7 (.accepted false) (frameEnded s))) ∧
   (∀ s : State, s.station.phase = .setup →
     ∃ u, exec .setupWindowExpiry s = .next (react u) ∧
       RunEntered (raise .selfLocked { s with station := { s.station with locked := true } }) u) ∧
   (∀ s : State, s.station.phase = .listen → s.station.calibration.isSome → s.station.locked = true →
       (∀ f ∈ s.line.list, f.kind ≠ .rejoin) →
     ∃ u, exec .listenTimerExpiry s = .next (react u) ∧
       RunEntered (placeFrame ⟨.rejoin, [startCauseCode s.station.cause], none, false⟩ s) u) ∧
   (∀ (input : List CalibrationInput) (s : State), s.station.phase = .calibrating → s.station.locked = true →
     ∃ u w, exec (.calibrationDone input) s = .next (react u) ∧
       ((∀ p, (calibrated s.station.population input p).any calFaulty = false) → RunEntered w u) ∧
       ((∃ p, (calibrated s.station.population input p).any calFaulty = true) → RunEntered (raise .calFault w) u) ∧
       (∀ p, w.port p = { s.port p with front := { (s.port p).front with terminated := false } }) ∧
       (∀ p, w.station.calFaults.has p = (calibrated s.station.population input p).any calFaulty) ∧
       w = { s with
         ports := w.ports
         station := { s.station with
           calibration := some (ofPorts (calibrated s.station.population input)), calFaults := w.station.calFaults } })) ∧
  ((∀ s : State, s.station.phase = .listen → (∀ f ∈ s.line.list, f.kind ≠ .rejoin) →
     (s.station.calibration = none →
       ∃ t, exec .listenTimerExpiry s = .next t ∧
         (∀ p, t.port p = { s.port p with front := { (s.port p).front with terminated := decide (p = 0) } }) ∧
         t = { placeFrame ⟨.rejoin, [startCauseCode s.station.cause], none, false⟩ s with
           ports := t.ports
           station := { s.station with
             phase := .calibrating, listen := ⟨false, 0, 0⟩, calFaults := PortSet.none
             calibrating := ⟨true, 0, 12288 * populationCount s.station.population⟩
             window := ⟨false, 0, 0⟩ } }) ∧
     (s.station.calibration.isSome → s.station.locked = false →
       exec .listenTimerExpiry s = .next { placeFrame ⟨.rejoin, [startCauseCode s.station.cause], none, false⟩ s with
         station := { s.station with
           phase := .setup, listen := ⟨false, 0, 0⟩, calibrating := ⟨false, 0, 0⟩, window := ⟨true, 0, 2000000⟩ } })) ∧
   (∀ (via : Via) (s : State), RequestReady s → via.broadcast = false → s.station.phase = .setup →
     ∃ u, exec (.calibrate via) s = .next (reply 8 (.accepted false) u) ∧
       (∀ p, u.port p = { s.port p with front := { (s.port p).front with terminated := decide (p = 0) } }) ∧
       u = { frameEnded s with
         ports := u.ports
         station := { s.station with
           phase := .calibrating, listen := ⟨false, 0, 0⟩, calibration := none, calFaults := PortSet.none
           calibrating := ⟨true, 0, 12288 * populationCount s.station.population⟩
           window := { s.station.window with running := false } } }) ∧
   (∀ (input : List CalibrationInput) (s : State), s.station.phase = .calibrating → s.station.locked = false →
     ∃ t, exec (.calibrationDone input) s = .next t ∧ t.station.phase = .setup ∧ t.station.locked = false ∧
       t.station.calibration = some (ofPorts (calibrated s.station.population input)) ∧
       (∀ p, t.station.calFaults.has p = (calibrated s.station.population input p).any calFaulty) ∧
       (∀ p : PortId, calibrated s.station.population input p =
         if p.val < populationCount s.station.population then some (calibratePort (input.getD p.val noCapture)) else none) ∧
       t.station.window = (if s.station.window.limit = 0 then ⟨true, 0, 2000000⟩ else { s.station.window with running := true }) ∧
       t.station.calibrating.running = false ∧
       t.summary = (if ∃ p, t.station.calFaults.has p = true then s.summary.add .calFault else s.summary) ∧
       (∀ p, t.port p = { s.port p with front := { (s.port p).front with terminated := false } }) ∧ t.setup = s.setup ∧ t.queue = s.queue ∧ t.view = s.view))

/-! ### Requests: refusals -/

/-- R146, R171, R173, R175, R176: of the eight checks in their order the first that fails gives the answer, for every request row with
any operands and any payload of any kind: an unlisted kind, missing bytes, a broadcast of another kind, the phase, a coded operand, a
FORCE grade, a port, a page or index; a payload that fails none is refused by none. Only LOCKED counts, and any request that finds two
REPORT frames is dropped. The clauses on single rows and boundary values are instances of the first. -/
def Obligations.RequestChecksAnswerInTheirOrder : Prop :=
  (∀ (c : Instr) (b : Bool) (payload : List Byte) (s : State), requestOf c = some (b, payload) → payload ≠ [] →
    (RequestReady s → ∀ (r : Reason) (failed : Prop) (before after : List (Prop × Reason)),
      checkRows b payload s.station = before ++ (failed, r) :: after → failed → (∀ x ∈ before, ¬x.1) →
      exec c s = .next (reply (payload.getD 0 0) (.refused r) (frameEnded s))) ∧
    (FrameReady s → 2 ≤ countKind .report s.line.list →
      exec c s = .next (raise .requestOverrun
        { frameEnded s with counters := { s.counters with overruns := satCount s.counters.overruns } }))) ∧
  (∀ (b : Bool) (payload : List Byte) (st : Station),
    (∀ r, firstFailure b payload st = some r ↔ ∃ before failed after,
      checkRows b payload st = before ++ (failed, r) :: after ∧ failed ∧ ∀ x ∈ before, ¬x.1) ∧
    (firstFailure b payload st = none ↔ ∀ x ∈ checkRows b payload st, ¬x.1)) ∧
  (∀ (via : Via) (s : State), RequestReady s →
     (∀ (b : Bool) (kind : Byte) (rest : List Byte), (kind.toNat = 0 ∨ 10 ≤ kind.toNat) →
       exec (.badKindRequest b (kind :: rest)) s = .next (reply kind (.refused .badKind) (frameEnded s))) ∧
     (∀ (b : Bool) (kind : Byte) (rest : List Byte), (kind = 1 ∨ kind = 2) → rest.length < 5 →
       exec (.badKindRequest b (kind :: rest)) s = .next (reply kind (.refused .badKind) (frameEnded s))) ∧
     (∀ (kind : Byte) (rest : List Byte), 1 ≤ kind.toNat → kind.toNat ≤ 9 → kind ≠ 3 → kind ≠ 7 →
       exec (.badKindRequest true (kind :: rest)) s = .next (reply kind (.refused .badKind) (frameEnded s))) ∧
     (via.broadcast = false →
       (s.station.phase ≠ .run → ∀ port pairs reach av intr,
         exec (.measure via port pairs reach av intr) s = .next (reply 1 (.refused .notRunning) (frameEnded s)) ∧
         exec (.sweep via port pairs reach av intr) s = .next (reply 2 (.refused .notRunning) (frameEnded s))) ∧
       (s.station.phase = .run → ∀ (port pairs reach av intr : Byte), 3 ≤ reach.toNat →
         exec (.measure via port pairs reach av intr) s = .next (reply 1 (.refused .badKind) (frameEnded s))) ∧
       (s.station.phase = .run → ∀ (port pairs reach av intr : Byte), reach.toNat ≤ 2 → 12 ≤ port.toNat →
         exec (.measure via port pairs reach av intr) s = .next (reply 1 (.refused .badPort) (frameEnded s))) ∧
       (s.station.phase ≠ .setup → ∀ item v,
         exec (.setup via item [v, v, v]) s =
           (if s.station.locked then .next (reply 6 (.refused .locked) (frameEnded s))
             else .next (reply 6 (.refused .notSetup) (frameEnded s)))) ∧
       (s.station.phase ≠ .setup → exec (.calibrate via) s = .next (reply 8 (.refused .notSetup) (frameEnded s))) ∧
       (∀ (port grade : Byte), grade ≠ 1 → grade ≠ 2 →
         exec (.force via port grade) s = .next (reply 4 (.refused .badGrade) (frameEnded s))) ∧
       (∀ (port : Byte), 12 ≤ port.toNat →
         exec (.restart via port) s = .next (reply 4 (.refused .badPort) (frameEnded s)) ∧
         exec (.queryLength via port) s = .next (reply 5 (.refused .badPort) (frameEnded s))) ∧
       (∀ page : Byte, 3 ≤ page.toNat →
         exec (.queryStation via page) s = .next (reply 5 (.refused .badTarget) (frameEnded s)))) ∧
     (s.station.phase ≠ .setup → s.station.locked = false →
       exec (.lock via) s = .next (reply 7 (.refused .notSetup) (frameEnded s))) ∧
     (reply 6 (.refused .locked) s).counters = { s.counters with lockedRefusals := satCount s.counters.lockedRefusals } ∧
     (∀ kind a, a ≠ .refused .locked → (reply kind a s).counters = s.counters) ∧
     (∀ kind a, (reply kind a s).line.list = insertFrame ⟨.report, kind :: answerBytes a, none, false⟩ s.line.list)) ∧
  ∀ (b : Bool) (s : State), FrameReady s → exec (.badKindRequest b []) s = .next (frameEnded s)

/-! ### Echo channels: shots, captures and the end of a burst -/

/-- R91 to R93, R80: a launch trigger with the port HELD, no conflicting claim and no stop pending launches the next shot on its pair,
with the pulse width of its reach, and counts it; with one of the first two failing it launches nothing and the entry is given back,
and a pending stop takes effect with the outcome that stands. The model's choices: a trigger taken in the recovery of a shot begins
the next period, and a result still due comes first (assumption log 14); the state keeps what was launched last (log 19). That a timer
which stops stands at 0 and that a released claim's timers go on without effect is the model's choice (assumption log 38); what a
channel keeps of an ended measurement is inferred from the rules (log 39). -/
def Obligations.LaunchTriggersFireOrWithdraw : Prop :=
  ∀ (ch : ChannelId) (m : Measurement) (e : Entry) (s : State), (s.chan ch).phase = .bursting →
    ((s.chan ch).stage = .gap ∨ ((s.chan ch).stage = .recovery ∧ (s.chan ch).launched < m.planned)) →
    (s.chan ch).meas = some m → heldEntry ch s = some e → e.target = m.port →
    ((s.chan ch).working = none → (s.chan ch).stop = none → (s.port m.port).train.state = .held →
      (∀ v ∈ s.view, conflicts s.station.geometry m.target v.target = false) →
      ∀ x, e.pairs.members[(s.chan ch).launched / (4 * averagingCount e.averaging)]? = some x →
      ∃ t, exec (.launchTrigger ch) s = .next t ∧
        t = { (s.modPort m.port (fun _ => t.port m.port)).modChan ch (fun _ => t.chan ch) with
          budget := countShot s.setup.shotThreshold s.setup.paceTime s.budget } ∧
        t.port m.port = { s.port m.port with front := { (s.port m.port).front with
          launched := [.pulse x (match e.reach with | .short => 4 | .medium => 8 | .long => 16)] } } ∧
        t.chan ch = { s.chan ch with
          stage := .capture, launched := (s.chan ch).launched + 1, shot := ⟨true, 4, 16⟩ }) ∧
    (∀ l, (s.chan ch).working = none → (s.chan ch).stop = none → (s.chan ch).claim = some l → l.state = .active →
      ((s.port m.port).train.state ≠ .held ∨ ∃ v ∈ s.view, conflicts s.station.geometry m.target v.target = true) →
      ∃ t, exec (.launchTrigger ch) s = .next (react t) ∧ GivesBack ch m.port e s t ∧ ClaimReleased ch l s t) ∧
    (∀ o, (s.chan ch).working = none → (s.chan ch).stop = some o →
      ∃ t, exec (.launchTrigger ch) s = .next (react t) ∧ StopTaken ch (mergeStop (some o) .withdrawn) s t) ∧
    (∀ t, (s.chan ch).working.isSome → exec (.pairResultReturn ch) s = .next t →
      exec (.launchTrigger ch) s = exec (.launchTrigger ch) t)

/-- R91, R92, R95, R103: a capture adds its digitized samples to the sums of its phase on all four pairs, the phases in the order 0, 2,
1, 3; at a pair's last shot the sums divided by N, truncated toward zero, go to the distance unit and the sums to 0; the unit's result
joins the pair results. Samples missing from the input count as 0 (the model's choice, assumption log 15). -/
def Obligations.CapturesSumAverageAndReturnResults : Prop :=
  ∀ (ch : ChannelId) (m : Measurement) (e : Entry) (input : CaptureInput) (s : State), (s.chan ch).phase = .bursting →
    (s.chan ch).meas = some m → heldEntry ch s = some e → e.target = m.port →
    ((s.chan ch).stage = .capture → (s.chan ch).stop = none →
      ∃ sums, CaptureAdded (match e.reach with | .short => 256 | .medium => 768 | .long => 1536)
          (((s.chan ch).launched - 1) % 4) input (s.chan ch).sums sums ∧
        ((s.chan ch).launched % (4 * averagingCount e.averaging) ≠ 0 →
          exec (.captureClose ch input) s = .next (s.modChan ch (fun c => { c with stage := .recovery, sums := sums }))) ∧
        (∀ x, (s.chan ch).launched % (4 * averagingCount e.averaging) = 0 →
            e.pairs.members[((s.chan ch).launched - 1) / (4 * averagingCount e.averaging)]? = some x →
          ∃ averages : PerPair (PerPhase (List Int)),
            (∀ y, averages.get y =
              ⟨(sums.get y).k0.map (fun v => Int.tdiv v (averagingCount e.averaging)),
                (sums.get y).k1.map (fun v => Int.tdiv v (averagingCount e.averaging)),
                (sums.get y).k2.map (fun v => Int.tdiv v (averagingCount e.averaging)),
                (sums.get y).k3.map (fun v => Int.tdiv v (averagingCount e.averaging))⟩) ∧
            exec (.captureClose ch input) s = .next (s.modChan ch (fun c => { c with
              stage := .recovery
              sums := PerPair.const (PerPhase.const (List.replicate
                (match e.reach with | .short => 256 | .medium => 768 | .long => 1536) 0))
              working := some ⟨m.port, x, e.reach, averages⟩ })))) ∧
    (∀ w, (s.chan ch).working = some w →
      exec (.pairResultReturn ch) s = .next (s.modChan ch (fun c => { c with
        working := none
        results := c.results ++ [(w.driven, processPair (echoSettings w.port s) ((calibrationOf w.port s).q0.get w.driven)
          (((calibrationOf w.port s).templates.get w.driven).get w.reach) w)] }))) ∧
    (∀ n, averagingCount n = (match n with | .n1 => 1 | .n2 => 2 | .n4 => 4 | .n8 => 8 | .n16 => 16)) ∧
    ∀ q, echoSettings q s = ⟨s.setup.delay, s.setup.segments[q.val], s.setup.alpha, s.setup.detect, s.setup.mismatch,
      s.setup.junctionLimit, s.setup.cross⟩

/-- R94, R95, R69, R99, R125 to R127: the natural end of a burst is the final outcome COMPLETE, a sample of at least the busy
threshold in a listen gap is BUSY_LINE with the pairs done, whatever the entry's tag and the port's downshift check; the claim is
released, shots launched and results stay, and BUSY_LINE discards the partial sums; a smaller sample fails nothing. A busy check taken
in the recovery of a shot that is not the last begins the next period (the model's choice, assumption log 14). That a timer which
stops stands at 0 and that a released claim's timers go on without effect is the model's choice (assumption log 38); what a channel
keeps of an ended measurement is inferred from the rules (log 39). -/
def Obligations.BurstsEndInARecord : Prop :=
  (∀ (ch : ChannelId) (m : Measurement) (e : Entry) (l : LocalClaim) (q : Count16) (s : State), (s.chan ch).phase = .bursting →
    (s.chan ch).meas = some m → heldEntry ch s = some e → entryFor m.port s = some e → e.target = m.port →
    (s.chan ch).claim = some l → l.state ≠ .queued → (s.chan ch).sequence = some q → (s.chan ch).working = none →
    ((s.chan ch).stage = .recovery → m.planned ≤ (s.chan ch).launched →
      ∃ t, exec (.burstEnd ch) s = .next (react t) ∧
        ChannelFreed endedMeasurement ch (finalOutcome m.port (.complete q (recordPairs (s.chan ch).results none)) s) t ∧
        (e.tag = none → s.sweep.status ≠ .waitingSpace → (s.port m.port).train.downshiftCheck = false →
          BurstRecorded ch m.port l
            ⟨q, e.origin, .complete, e.reach, e.averaging, recordPairs (s.chan ch).results none⟩ s t)) ∧
    (((s.chan ch).stage = .gap ∨ ((s.chan ch).stage = .recovery ∧ (s.chan ch).launched < m.planned)) →
      (∀ sample x, s.setup.busy ≤ (digitize sample).natAbs →
        e.pairs.members[(s.chan ch).launched / (4 * averagingCount e.averaging)]? = some x →
        ∃ t, exec (.busyCheckFailure ch sample) s = .next (react t) ∧
          ChannelFreed busyMeasurement ch (finalOutcome m.port (.busyLine q (recordPairs (s.chan ch).results (some x))) s) t ∧
          (e.tag = none → s.sweep.status ≠ .waitingSpace → (s.port m.port).train.downshiftCheck = false →
            BurstRecorded ch m.port l ⟨q, e.origin, .busyLine, e.reach, e.averaging,
              recordPairs (s.chan ch).results (some x)⟩ s t)) ∧
      (∀ sample, (digitize sample).natAbs < s.setup.busy → exec (.busyCheckFailure ch sample) s = .next s))) ∧
  ∀ (results : List (Pair × PairResult)) (busy : Option Pair) (x : Pair),
    (∀ r, results.find? (fun r => r.1 = x) = some r → (recordPairs results busy).get x = r.2) ∧
    (results.find? (fun r => r.1 = x) = none → (recordPairs results busy).get x =
      if busy = some x then ⟨.busy, none, none, false, []⟩ else ⟨.notMeasured, none, none, false, []⟩)

/-- R80 to R82: the shot that takes the count over the threshold brings PACED, the count saturates, each window expiry returns the
count to 0 and takes one pace window, and the pace interval passes. A timer that stops here stands at 0, which is the model's choice
(assumption log 38). -/
def Obligations.PulseBudgetPacesTheStation : Prop :=
  (∀ (threshold pace : Nat) (b : Budget),
    (countShot threshold pace b).shots = min 65535 (b.shots + 1) ∧
    (b.shots ≤ threshold → threshold < min 65535 (b.shots + 1) →
      (countShot threshold pace b).paced = true ∧ (countShot threshold pace b).paceLeft = pace) ∧
    (¬(b.shots ≤ threshold ∧ threshold < min 65535 (b.shots + 1)) →
      (countShot threshold pace b).paced = b.paced ∧ (countShot threshold pace b).paceLeft = b.paceLeft)) ∧
  (∀ s : State, s.station.phase = .run → s.budget.window.running = true →
    exec .budgetWindowExpiry s = .next (react { s with budget := { s.budget with
      shots := 0, window := ⟨true, 0, 4000 * s.setup.budgetWindow⟩
      paceLeft := if s.budget.paced then s.budget.paceLeft - 1 else s.budget.paceLeft
      paced := s.budget.paced && decide (s.budget.paceLeft - 1 ≠ 0) } })) ∧
  (∀ s : State, s.budget.pace.running = true →
    exec .paceIntervalPassed s = .next (react { s with budget := { s.budget with
      pace := ⟨false, 0, 0⟩, pacePassed := true } }))

/-- R73 to R76, R82, R85, R87, R156: the arbiter is silent where no offer is allowed; where one is, an idle channel that finds an
eligible entry is offered the first in queue order, channel 1 before channel 0, until none is left; and a pickup acts by the port's
state and makes the claim. Every pickup starts the channel with shots launched 0 and sums, results and stop outcome empty, and one
that ends at once leaves it IDLE so, with no value of the entry. The model's choices: the reactions to a command come once at its end,
in the order bursts, claims, shadows, offers (assumption log 7), and 64 offers are made at most (log 23). A timer that stops here
stands at 0, which is the model's choice (assumption log 38); that settled is no and the sequence number and working set are none
after a pickup is inferred (log 39). -/
def Obligations.OffersPickUpTheFirstEligibleEntry : Prop :=
  (∀ s : State, (s.station.phase ≠ .run ∨ s.line.condition = .stuck ∨ s.line.listenIn.running = true ∨
      s.line.duplicate = true ∨ s.station.announced = false) → arbitrate s = s) ∧
  (∀ (ch : ChannelId) (s t : State), offerTo ch s = some t →
    (s.chan ch).phase = .idle ∧ ∃ e before after, s.queue = before ++ e :: after ∧ e.holder = none ∧
      (∀ x ∈ before, eligible ch s x = false) ∧ t = pickup ch e s ∧
      (∀ m, (s.chan (otherChannel ch)).meas = some m →
        conflicts s.station.geometry (globalOf s.station.number e.target) m.target = false) ∧
      (∀ v ∈ s.view, conflicts s.station.geometry (globalOf s.station.number e.target) v.target = true →
        e.priority = .urgent ∧ v.priority = .background) ∧
      (e.priority = .background → ch = 0 ∧ ∀ x ∈ s.queue, x.holder = none → x.priority = .background) ∧
      (e.priority ≠ .urgent → s.budget.paced = true → s.budget.lastClaimStart ≠ none → s.budget.pacePassed = true)) ∧
  (∀ (ch : ChannelId) (e : Entry) (s : State), s.station.phase = .run → s.line.condition ≠ .stuck →
      s.line.listenIn.running = false → s.line.duplicate = false → s.station.announced = true → (s.chan ch).phase = .idle →
      e ∈ s.queue → e.holder = none →
      (∀ m, (s.chan (otherChannel ch)).meas = some m →
        conflicts s.station.geometry (globalOf s.station.number e.target) m.target = false) →
      (∀ v ∈ s.view, conflicts s.station.geometry (globalOf s.station.number e.target) v.target = true →
        e.priority = .urgent ∧ v.priority = .background) →
      (e.priority = .background → ch = 0 ∧ ∀ x ∈ s.queue, x.holder = none → x.priority = .background) →
      (e.priority ≠ .urgent → s.budget.paced = true → s.budget.lastClaimStart ≠ none → s.budget.pacePassed = true) →
    offerTo ch s ≠ none) ∧
  (∀ (s : State), arbitrate s = offers 64 s ∧
    react s = arbitrate (updateShadows (moveReady readyToClaim enterClaiming (moveReady readyToBurst enterBursting s))) ∧ ∀ n,
    (∀ t, offerTo 1 s = some t → offers (n + 1) s = offers n t) ∧
    (∀ t, offerTo 1 s = none → offerTo 0 s = some t → offers (n + 1) s = offers n t) ∧
    (offerTo 1 s = none → offerTo 0 s = none → offers n s = s)) ∧
  (∀ (ch : ChannelId) (s : State), (∀ e ∈ s.queue, e.holder = none → (s.port e.target).train.state ≠ .disabled ∧
      ((s.port e.target).train.state = .up → e.intrusive = true)) → offerTo ch (arbitrate s) = none) ∧
  (∀ (ch : ChannelId) (e : Entry) (s : State), heldEntry ch (setHolder e.target (some ch) s) = some { e with holder := some ch } →
    ((s.port e.target).train.state = .disabled → (s.chan ch).phase = .idle →
      pickup ch e s = finalOutcome e.target .portDisabled ((setHolder e.target (some ch) s).modChan ch clearedMeasurement) ∧
        (pickup ch e s).chan ch = clearedMeasurement (s.chan ch) ∧ ((pickup ch e s).chan ch).phase = .idle) ∧
    ((s.port e.target).train.state = .up → e.intrusive = false → (s.chan ch).phase = .idle →
      pickup ch e s = finalOutcome e.target .skippedLinkUp ((setHolder e.target (some ch) s).modChan ch clearedMeasurement) ∧
        (pickup ch e s).chan ch = clearedMeasurement (s.chan ch) ∧ ((pickup ch e s).chan ch).phase = .idle) ∧
    ((s.port e.target).train.state = .up → e.intrusive = true →
      ((pickup ch e s).port e.target).train.state = .held ∧
        ((pickup ch e s).port e.target).train.holds = ⟨true, false, false⟩ ∧
        ((pickup ch e s).port e.target).train.lastDrop = some .heldForMeasurement ∧
        (pickup ch e s).summary = s.summary.add (.linkDown e.target) ∧
        (pickup ch e s).chan ch = { clearedMeasurement (s.chan ch) with
          phase := .preparing, settle := ⟨true, 0, 1000 * 4 ^ s.setup.dropSettle⟩
          meas := (some ⟨e.target, globalOf s.station.number e.target, e.pairs.size * 4 * averagingCount e.averaging,
            (e.pairs.size * 4 * averagingCount e.averaging + 3) / 4 + 1⟩) } ∧ (pickup ch e s).line.list.filter (fun f => f.kind == .claim) =
          s.line.list.filter (fun f => f.kind == .claim)) ∧
    ((s.port e.target).train.state ≠ .disabled → (s.port e.target).train.state ≠ .up →
      ((pickup ch e s).port e.target).train.state = .held ∧
        ((pickup ch e s).port e.target).train.holds.channel = true ∧
        ((pickup ch e s).port e.target).train.holds.await = false ∧
        ((pickup ch e s).port e.target).train.lastFailure = (s.port e.target).train.lastFailure ∧
        (pickup ch e s).chan ch = { clearedMeasurement (s.chan ch) with
          phase := .claiming
          meas := (some ⟨e.target, globalOf s.station.number e.target, e.pairs.size * 4 * averagingCount e.averaging,
            (e.pairs.size * 4 * averagingCount e.averaging + 3) / 4 + 1⟩)
          claim := (some ⟨s.claimCounter, .queued, globalOf s.station.number e.target, e.priority,
            (e.pairs.size * 4 * averagingCount e.averaging + 3) / 4 + 1, ⟨false, 0, 0⟩, ⟨false, 0, 0⟩⟩) } ∧
        (pickup ch e s).claimCounter = s.claimCounter + 1 ∧
        (pickup ch e s).budget = { s.budget with
          lastClaimStart := some s.now, pace := ⟨true, 0, 1000 * s.setup.paceInterval⟩, pacePassed := false } ∧
        (pickup ch e s).line.list = insertFrame ⟨.claim, [s.claimCounter, byteOf (globalOf s.station.number e.target).val,
          priorityCode e.priority, byteOf ((e.pairs.size * 4 * averagingCount e.averaging + 3) / 4 + 1)], some ch, false⟩
          s.line.list))

/-! ### Quiet claims -/

/-- R86 to R90, R96, R157, R158, R163, R165: the local claim's own events: the drop settle's end, the CLAIM sent intact (it stands, or
a conflict or a pending stop ends it) or lost, the end of hold-off, the yield limit, and the RELEASE's departure; and how a waiting
channel moves on: settled with no counted conflict into CLAIMING, or out of WAIT_YIELD with no conflict into BURSTING. The model's
choices: the bit a departure given as a command stands for, and that an abandoned one is the transmit fault itself (assumption logs
34, 21), a conflict still unsettled at the end of hold-off withdraws the claim (log 16), a pending stop acts after the judgement (log
32), and a free value orders two channels that move on in one step (log 6). That a timer which stops stands at 0 and that a released
claim's timers go on without effect is the model's choice (assumption log 38); what a channel keeps of an ended measurement is
inferred from the rules (log 39). -/
def Obligations.LocalClaimsRunFromSettleToRelease : Prop :=
  (∀ (ready : State → ChannelId → Bool) (move : ChannelId → State → State) (s : State),
    (∀ ch, ready s ch = true → ready s (otherChannel ch) = false → moveReady ready move s = move ch s) ∧
    (ready s 0 = false → ready s 1 = false → moveReady ready move s = s) ∧
    (ready s 0 = true → ready s 1 = true → moveReady ready move s =
      if Config.channelOneFirst s.draws then move 0 (move 1 { s with draws := s.draws + 1 })
      else move 1 (move 0 { s with draws := s.draws + 1 }))) ∧
  (∀ (ch : ChannelId) (s : State),
    (readyToClaim s ch = true ↔ (s.chan ch).phase = .preparing ∧ (s.chan ch).settled = true ∧
      ∃ m e, (s.chan ch).meas = some m ∧ heldEntry ch s = some e ∧
        ∀ v ∈ s.view, conflicts s.station.geometry m.target v.target = true → e.priority = .urgent ∧ v.priority = .background) ∧
    (readyToBurst s ch = true ↔ (s.chan ch).phase = .waitYield ∧
      ∃ m, (s.chan ch).meas = some m ∧ ∀ v ∈ s.view, conflicts s.station.geometry m.target v.target = false) ∧
    ∀ m e, (s.chan ch).meas = some m → heldEntry ch s = some e →
      enterClaiming ch s = { s.modChan ch (fun c => { c with
            phase := .claiming, settle := ⟨false, 0, 0⟩, settled := false
            claim := some ⟨s.claimCounter, .queued, m.target, e.priority, m.duration, ⟨false, 0, 0⟩, ⟨false, 0, 0⟩⟩ }) with
          claimCounter := s.claimCounter + 1
          budget := { s.budget with
            lastClaimStart := some s.now, pace := ⟨true, 0, 1000 * s.setup.paceInterval⟩, pacePassed := false }
          line := { s.line with list := insertFrame ⟨.claim, [s.claimCounter, byteOf m.target.val, priorityCode e.priority,
            byteOf m.duration], some ch, false⟩ s.line.list } } ∧
      ∀ l, (s.chan ch).claim = some l → enterBursting ch s = { s.modChan ch (fun c => { c with
            phase := .bursting, sequence := some s.sequence, stage := .gap, shot := ⟨true, 0, 16⟩, launched := 0
            sums := PerPair.const (PerPhase.const (List.replicate
              (match e.reach with | .short => 256 | .medium => 768 | .long => 1536) 0))
            results := [], working := none
            claim := some { l with state := .active, holdoff := ⟨false, 0, 0⟩, yieldTimer := ⟨false, 0, 0⟩ } }) with
          sequence := s.sequence + 1 }) ∧
  ∀ (ch : ChannelId) (m : Measurement) (e : Entry) (l : LocalClaim) (o : OnLine) (s : State),
    ((s.chan ch).phase = .preparing → (s.chan ch).settle.running = true →
      exec (.channelSettleExpiry ch) s = .next (react (s.modChan ch (fun c =>
        { c with settle := ⟨false, 0, 0⟩, settled := true })))) ∧
    ((s.chan ch).claim = some l → (s.chan ch).meas = some m → heldEntry ch s = some e → e.target = m.port →
      (l.state = .queued → o.frame.isFor .claim ch = true →
        (∀ d u w, (d = .voided ∨ d = .abandoned) → FrameLeaves d o s u → w = withoutFrame (fun f => f.isFor .claim ch) u →
          ∃ t, exec (.claimFrameDeparture ch d) s = .next (react t) ∧
            StopTaken ch (mergeStop (s.chan ch).stop .withdrawn) w t) ∧
        (∀ x w, FrameLeaves .sent o s x → w = (withoutFrame (fun f => f.isFor .claim ch) x).modChan ch (fun c =>
            { c with claim := some { l with state := .holdoff, holdoff := ⟨false, 0, 0⟩ } }) →
          ((∀ v ∈ s.view, conflicts s.station.geometry l.target v.target = false) →
            ((s.chan ch).stop = none → exec (.claimFrameDeparture ch .sent) s = .next (react w)) ∧
            (∀ x, (s.chan ch).stop = some x →
              ∃ t, exec (.claimFrameDeparture ch .sent) s = .next (react t) ∧ StopTaken ch x w t)) ∧
          ((∃ v ∈ s.view, conflicts s.station.geometry l.target v.target = true ∧
              judge l.priority s.station.number v.priority v.station = .newLoses) →
            ∃ t, exec (.claimFrameDeparture ch .sent) s = .next (react t) ∧
              StopTaken ch (mergeStop (s.chan ch).stop .withdrawn) w t) ∧
          (∀ u, (∀ v ∈ s.view, conflicts s.station.geometry l.target v.target = true →
                judge l.priority s.station.number v.priority v.station ≠ .newLoses) →
              u = { w with view := s.view.filter (fun v => !(conflicts s.station.geometry l.target v.target &&
                judge l.priority s.station.number v.priority v.station == .knownLoses)) } →
            ((∃ v ∈ s.view, conflicts s.station.geometry l.target v.target = true ∧
                judge l.priority s.station.number v.priority v.station = .newYields) →
              ∃ t, exec (.claimFrameDeparture ch .sent) s = .next (react t) ∧
                StopTaken ch (mergeStop (s.chan ch).stop .preempted) u t) ∧
            ((∀ v ∈ s.view, conflicts s.station.geometry l.target v.target = true →
                judge l.priority s.station.number v.priority v.station ≠ .newYields) →
              ((s.chan ch).stop = none → exec (.claimFrameDeparture ch .sent) s = .next (react u)) ∧
              (∀ x, (s.chan ch).stop = some x →
                ∃ t, exec (.claimFrameDeparture ch .sent) s = .next (react t) ∧ StopTaken ch x u t))))) ∧
      ((s.chan ch).phase = .claiming → l.state = .holdoff →
        ((∀ v ∈ s.view, conflicts s.station.geometry l.target v.target = false) →
          ∃ t, exec (.holdoffEnd ch) s = .next (react t) ∧
            t = { s.modChan ch (fun _ => t.chan ch) with sequence := s.sequence + 1 } ∧
            t.chan ch = { s.chan ch with
              phase := .bursting, sequence := some s.sequence, stage := .gap, shot := ⟨true, 0, 16⟩, launched := 0
              sums := PerPair.const (zeroSums (captureWindow e.reach)), results := [], working := none
              claim := some { l with state := .active, holdoff := ⟨false, 0, 0⟩, yieldTimer := ⟨false, 0, 0⟩ } }) ∧
        ((∃ v ∈ s.view, conflicts s.station.geometry l.target v.target = true) →
          (l.priority = .urgent →
              (∀ v ∈ s.view, conflicts s.station.geometry l.target v.target = true → v.priority = .background) →
            exec (.holdoffEnd ch) s = .next (react (s.modChan ch (fun c => { c with
              phase := .waitYield
              claim := some { l with
                state := .waitYield, holdoff := ⟨false, 0, 0⟩, yieldTimer := ⟨true, 0, 2000⟩ } })))) ∧
          ((l.priority ≠ .urgent ∨
              ∃ v ∈ s.view, conflicts s.station.geometry l.target v.target = true ∧ v.priority ≠ .background) →
            ∃ t, exec (.holdoffEnd ch) s = .next (react t) ∧
              StopTaken ch (mergeStop (s.chan ch).stop .withdrawn) s t))) ∧
      ((s.chan ch).phase = .waitYield → l.state ≠ .queued → (s.chan ch).stop = none →
        ∃ t, exec (.yieldLimit ch) s = .next (react t) ∧ GivesBack ch m.port e s t ∧ ClaimReleased ch l s t)) ∧
    (∀ d u, FrameLeaves d o s u → o.frame.isFor .release ch = true → (s.chan ch).phase = .releasing →
      exec (.releaseDeparture ch d) s = .next (react
        ((withoutFrame (fun f => f.isFor .release ch) u).modChan ch (fun c => { c with phase := .idle, claim := none }))))

/-- R154, R155, R159, R160, R163: a foreign CLAIM taken at its end bit: discarded by R155's checks, dropped when it loses a judgement, or entered
at the end of the view in HOLDOFF, its own old entry and the entries that lost to it removed, the earliest expiry making room; the
table of judgements; an entry turns ACTIVE and leaves at its expiry; and conflict is zone membership, symmetric: in SINGLE_ROW one apart, in STACKED the other port of the block or two
apart. -/
def Obligations.ForeignClaimsAreJudgedIntoTheView : Prop :=
  (∀ (src : BitVec 4) (st : StationNo) (number target priority duration : Byte) (s : State), FrameReady s →
     stationOf src = some st → st ≠ s.station.number →
     ((96 ≤ target.toNat ∨ 3 ≤ priority.toNat ∨ duration = 0) →
       exec (.claimTaken src number target priority duration) s = .next (frameEnded s)) ∧
     (∀ g pr, globalPortOf target = some g → priorityOf priority = some pr → duration ≠ 0 →
       ((∃ v ∈ s.view, ¬(v.station = st ∧ v.number = number) ∧ conflicts s.station.geometry g v.target = true ∧
           judge pr st v.priority v.station = .newLoses) → (∀ ch, (s.chan ch).claim = none) →
         exec (.claimTaken src number target priority duration) s =
           .next (react { frameEnded s with view := s.view.filter (fun v => decide (¬(v.station = st ∧ v.number = number))) })) ∧
       ((∀ v ∈ s.view, ¬(v.station = st ∧ v.number = number) → conflicts s.station.geometry g v.target = true →
           judge pr st v.priority v.station ≠ .newLoses) → (∀ ch, (s.chan ch).claim = none) →
         exec (.claimTaken src number target priority duration) s = .next (react { frameEnded s with
           view := makeRoom (s.view.filter (fun v => decide (¬(v.station = st ∧ v.number = number)) &&
               !(conflicts s.station.geometry g v.target && judge pr st v.priority v.station == .knownLoses))) ++
             [⟨st, number, false, g, pr, duration.toNat, s.now + 500, s.now + 64 * duration.toNat + 1500⟩] }))) ∧
     (∀ view : List ViewEntry, view.length < 16 → makeRoom view = view) ∧
     (∀ view : List ViewEntry, 16 ≤ view.length →
       ∃ before v after, view = before ++ v :: after ∧ makeRoom view = before ++ after ∧
         (∀ x ∈ view, v.expiry ≤ x.expiry) ∧ ∀ x ∈ before, v.expiry < x.expiry)) ∧
  (∀ (a b : Priority) (i j : StationNo),
     judge .background i .urgent j = .newYields ∧ judge .urgent i .background j = .knownYields ∧
     (¬(a = .urgent ∧ b = .background) → ¬(a = .background ∧ b = .urgent) →
       judge a i b j =
         if priorityRank a < priorityRank b ∨ (a = b ∧ i < j) then .knownLoses else .newLoses)) ∧
  (∀ (st : StationNo) (number : Byte) (s : State),
     ((∃ v ∈ s.view, v.station = st ∧ v.number = number ∧ v.active = false) →
       exec (.viewEntryActive st number) s = .next (react { s with
         view := s.view.map (fun v => if v.station = st ∧ v.number = number then { v with active := true } else v) })) ∧
     ((∃ v ∈ s.view, v.station = st ∧ v.number = number) →
       exec (.viewEntryExpiry st number) s = .next (react { s with
         view := s.view.filter (fun v => decide (¬(v.station = st ∧ v.number = number))) }))) ∧
  (∀ g h : GlobalPort, (∀ geo, conflicts geo g h = conflicts geo h g) ∧
    (conflicts .singleRow g h = true ↔ g = h ∨ g.val + 1 = h.val ∨ h.val + 1 = g.val) ∧
    (conflicts .stacked g h = true ↔ g.val / 2 = h.val / 2 ∨ g.val + 2 = h.val ∨ h.val + 2 = g.val))

/-- R163 to R166, R159, R97: a foreign claim that loses a judgement, against the view or the station's own known claim, is dropped; one
that stands enters the view and strikes the own claim by its state (nothing while RELEASING; pending in an open capture); and either
withdraws an unsent own claim that conflicts, but for an URGENT one against BACKGROUND; an own claim that does not conflict is left as it
is. With a claim of each channel both are
judged, channel 0 giving way before channel 1 (the model's choice, assumption log 33). -/
def Obligations.StandingClaimsStrikeLocalClaims : Prop :=
  (∀ (src : BitVec 4) (st : StationNo) (number target priority duration : Byte) (g : GlobalPort) (pr : Priority)
    (ch : ChannelId) (l : LocalClaim) (s : State), FrameReady s →
    stationOf src = some st → st ≠ s.station.number → globalPortOf target = some g → priorityOf priority = some pr →
    duration ≠ 0 → (s.chan (otherChannel ch)).claim = none →
    (s.chan ch).claim = some l →
    ∀ (view : List ViewEntry) (gone stands : State),
      view = s.view.filter (fun v => decide (¬(v.station = st ∧ v.number = number))) →
      gone = { frameEnded s with view := view } →
      stands = { frameEnded s with
        view := makeRoom (view.filter (fun v => !(conflicts s.station.geometry g v.target &&
            judge pr st v.priority v.station == .knownLoses))) ++
          [⟨st, number, false, g, pr, duration.toNat, s.now + 500, s.now + 64 * duration.toNat + 1500⟩] } →
      (conflicts s.station.geometry g l.target = false →
        ((∃ v ∈ view, conflicts s.station.geometry g v.target = true ∧ judge pr st v.priority v.station = .newLoses) →
          exec (.claimTaken src number target priority duration) s = .next (react gone)) ∧
        ((∀ v ∈ view, conflicts s.station.geometry g v.target = true → judge pr st v.priority v.station ≠ .newLoses) →
          exec (.claimTaken src number target priority duration) s = .next (react stands))) ∧
      (conflicts s.station.geometry g l.target = true →
       (l.state ≠ .queued → ((∃ v ∈ view, conflicts s.station.geometry g v.target = true ∧
            judge pr st v.priority v.station = .newLoses) ∨ judge pr st l.priority s.station.number = .newLoses) →
          exec (.claimTaken src number target priority duration) s = .next (react gone)) ∧
       (l.state = .queued → ∀ u, (u = gone ∧ (∃ v ∈ view, conflicts s.station.geometry g v.target = true ∧
              judge pr st v.priority v.station = .newLoses) ∨
            u = stands ∧ ∀ v ∈ view, conflicts s.station.geometry g v.target = true →
              judge pr st v.priority v.station ≠ .newLoses) →
          (¬(l.priority = .urgent ∧ pr = .background) →
            exec (.claimTaken src number target priority duration) s = .next (react (stopChannel ch .withdrawn u))) ∧
          (l.priority = .urgent → pr = .background →
            exec (.claimTaken src number target priority duration) s = .next (react u))) ∧
       (l.state ≠ .queued → (∀ v ∈ view, conflicts s.station.geometry g v.target = true →
            judge pr st v.priority v.station ≠ .newLoses) →
          (judge pr st l.priority s.station.number = .knownYields →
            exec (.claimTaken src number target priority duration) s =
              .next (react (if l.state = .holdoff ∨ l.state = .active then stopChannel ch .preempted stands else stands))) ∧
          (judge pr st l.priority s.station.number = .knownLoses →
            exec (.claimTaken src number target priority duration) s =
              .next (react (if l.state = .releasing then stands else stopChannel ch .withdrawn stands))) ∧
          (judge pr st l.priority s.station.number = .newYields →
            exec (.claimTaken src number target priority duration) s =
              .next (react (if l.state = .active then stopChannel ch .withdrawn stands else stands)))))) ∧
  ∀ (src : BitVec 4) (st : StationNo) (number target priority duration : Byte) (g : GlobalPort) (pr : Priority)
    (a b : LocalClaim) (s : State), FrameReady s →
    stationOf src = some st → st ≠ s.station.number → globalPortOf target = some g → priorityOf priority = some pr →
    duration ≠ 0 → (s.chan 0).claim = some a → (s.chan 1).claim = some b →
    ∀ (view : List ViewEntry) (apart : LocalClaim → Bool) (found : LocalClaim → Finding) (loses : Prop),
      view = s.view.filter (fun v => decide (¬(v.station = st ∧ v.number = number))) →
      (∀ l, apart l = !(conflicts s.station.geometry g l.target)) →
      (∀ l, found l = judge pr st l.priority s.station.number) →
      (loses ↔ (∃ v ∈ view, conflicts s.station.geometry g v.target = true ∧ judge pr st v.priority v.station = .newLoses) ∨
        ∃ l, (l = a ∨ l = b) ∧ l.state ≠ .queued ∧ apart l = false ∧ found l = .newLoses) →
      (loses → exec (.claimTaken src number target priority duration) s =
        .next (react (withdraws 1 b (apart b) pr (withdraws 0 a (apart a) pr { frameEnded s with view := view })))) ∧
      (¬loses → exec (.claimTaken src number target priority duration) s =
        .next (react (withdraws 1 b (apart b) pr (withdraws 0 a (apart a) pr (strikes 1 b (apart b) (found b)
          (strikes 0 a (apart a) (found a) { frameEnded s with
            view := makeRoom (view.filter (fun v => !(conflicts s.station.geometry g v.target &&
                judge pr st v.priority v.station == .knownLoses))) ++
              [⟨st, number, false, g, pr, duration.toNat, s.now + 500, s.now + 64 * duration.toNat + 1500⟩] }))))))

/-- R161, R162: RELEASE removes the one entry that matches station, number and target, else counts an unknown release; REJOIN removes
every entry of its station. -/
def Obligations.ViewEntriesLeaveByReleaseAndRejoin : Prop :=
  ∀ (src : BitVec 4) (st : StationNo) (number target cause : Byte) (s : State), FrameReady s → stationOf src = some st →
    st ≠ s.station.number →
      ((∃ v ∈ s.view, v.station = st ∧ v.number = number ∧ v.target.val = target.toNat) →
        exec (.releaseTaken src number target) s = .next (react { frameEnded s with
          view := s.view.filter (fun v =>
            !(decide (v.station = st) && decide (v.number = number) && decide (v.target.val = target.toNat))) })) ∧
      ((∀ v ∈ s.view, ¬(v.station = st ∧ v.number = number ∧ v.target.val = target.toNat)) →
        exec (.releaseTaken src number target) s =
          .next { frameEnded s with unknownReleases := satCount s.unknownReleases }) ∧
      exec (.rejoinTaken src cause) s =
        .next (react { frameEnded s with view := s.view.filter (fun v => decide (v.station ≠ st)) })

/-! ### The station line -/

/-- R139 to R141, R137, R88, R147, R148: the head frame starts when R139 allows it and not otherwise. A bit of byte 0 that is sent
recessive and reads dominant loses arbitration: the frame keeps its place, and a stop pending on its claim acts. Such a bit from the
spacer after byte 0 to the end of the check byte is a transmit fault: the frame leaves the list, each kind with its consequence. Other
bits do neither. The model's choices: the command stands for the bit read last or, where that was no conflict, for a dominant reading
of the next (assumption log 34), and the fault takes the departure with it (log 21). That a timer which stops stands at 0 and that a
released claim's timers go on without effect is the model's choice (assumption log 38); what a channel keeps of an ended measurement
is inferred from the rules (log 39). -/
def Obligations.FramesStartLoseAndAbort : Prop :=
  ∀ s : State,
    (∀ f rest, s.line.list = f :: rest →
      (s.line.onLine = none → s.line.assembler = .ready → s.line.idleCount = 11 → s.line.condition = .idle →
        s.line.listenIn.running = false → s.station.phase ≠ .listen →
        exec .frameStart s = .next { s with line := { s.line with
          condition := .busy, idleCount := 0, assembler := .receiving, objecting := false
          heard := [], check := 0, spacerFault := false
          onLine := (some ⟨f, frameBits (frameKindCode f.kind) s.station.number.val 15 f.payload, 1⟩) } }) ∧
      ((s.line.onLine ≠ none ∨ s.line.assembler ≠ .ready ∨ s.line.idleCount ≠ 11 ∨ s.line.condition = .stuck ∨
          s.line.listenIn.running = true ∨ s.station.phase = .listen) →
        exec .frameStart s = .next s)) ∧
    (∀ (o : OnLine) (st : StationNo) (read : Line) (n : Nat), s.line.onLine = some o → o.frame.payload.length ≤ 15 →
      o.bits = frameBits (frameKindCode o.frame.kind) st.val 15 o.frame.payload →
      (if s.line.heard.getLast? = some false ∧ o.bits[s.line.heard.length - 1]? = some true then
          read = s.line ∧ n = s.line.heard.length
        else read = readBit false s.line ∧ n = s.line.heard.length + 1) →
      (2 ≤ n → n ≤ 9 → o.bits[n - 1]? = some true → ∀ w : State,
        w = { s with
          line := { read with onLine := none, assembler := .receiving }
          counters := { s.counters with arbitrationLosses := satCount s.counters.arbitrationLosses } } →
        ((∀ ch, o.frame.kind = .claim → o.frame.channel = some ch → (s.chan ch).stop = none) →
          exec .arbitrationLoss s = .next w) ∧
        (∀ ch x, o.frame.kind = .claim → o.frame.channel = some ch → (s.chan ch).stop = some x →
          ∃ t, exec .arbitrationLoss s = .next (react t) ∧ StopTaken ch x w t)) ∧
      ((n < 2 ∨ 9 < n ∨ o.bits[n - 1]? = some false) → exec .arbitrationLoss s = .next s) ∧
      (10 ≤ n → n ≤ 27 + 9 * o.frame.payload.length → o.bits[n - 1]? = some true → ∀ w : State,
        w = { s with
          line := { read with
            onLine := none, assembler := .receiving, condition := .busy, idleCount := 0
            list := takeOut (fun f => decide (f = o.frame)) s.line.list }
          counters := { s.counters with transmitFaults := satCount s.counters.transmitFaults } } →
        (o.frame.kind = .report ∨ o.frame.kind = .alert → exec .transmitFault s = .next w) ∧
        (∀ ch, o.frame.kind = .claim → o.frame.channel = some ch →
          (∀ l, (s.chan ch).claim = some l → l.state = .queued) →
          ∃ t, exec .transmitFault s = .next (react t) ∧ StopTaken ch (mergeStop (s.chan ch).stop .withdrawn) w t) ∧
        (∀ ch, o.frame.kind = .release → o.frame.channel = some ch → (s.chan ch).phase = .releasing →
          exec .transmitFault s = .next (react (w.modChan ch (fun c => { c with phase := .idle, claim := none })))) ∧
        (o.frame.kind = .rejoin → o.frame.retried = false →
          exec .transmitFault s = .next (react { w with line := { w.line with
            list := insertFrame { o.frame with retried := true } w.line.list } })) ∧
        (o.frame.kind = .rejoin → o.frame.retried = true →
          exec .transmitFault s = .next (react { w with station := { s.station with
            announced := s.station.announced || decide (o.frame.payload ≠ [3]) } }))) ∧
      ((n < 10 ∨ 27 + 9 * o.frame.payload.length < n ∨ o.bits[n - 1]? = some false) → exec .transmitFault s = .next s))

/-- Table 8-5, R147, R148, R150, R184: how each way of leaving the list ends for REPORT, ALERT and REJOIN: sent or voided at the
objection slot, abandoned at a bit from the spacer after byte 0 to the end of the check byte that was sent recessive, and at no other
bit; a REJOIN that leaves unsent is placed once more, and its end announces the station; a waiting REPORT or RELEASE is discarded
under line trouble; and the step that follows the slot's bit is the departure. The model's choices: an abandoned departure is the
transmit fault itself (assumption log 21), and the row given as a command stands for the bit read last or the next one (log 34). That
a step on an empty queue takes this departure before anything else that is due is the model's choice too (log 1: one event a step, the
line's first). -/
def Obligations.DeparturesEndAsTheirKindSays : Prop :=
  (∀ (how : Departure) (o : OnLine) (s t : State), FrameLeaves how o s t →
    (o.frame.kind = .report → exec (.reportDeparture how) s = .next (withoutFrame (fun f => f.kind == .report) t)) ∧
    (o.frame.kind = .alert → exec (.alertDeparture how) s = .next (withoutFrame (fun f => f.kind == .alert) t)) ∧
    (∀ f u, o.frame.kind = .rejoin → s.line.list.find? (fun x => x.kind == .rejoin) = some f →
      u = withoutFrame (fun x => x.kind == .rejoin) t →
      (how = .sent ∨ f.retried = true → exec (.rejoinDeparture how) s = .next (react { u with
        station := { s.station with announced := s.station.announced || decide (f.payload ≠ [3]) } })) ∧
      (how ≠ .sent → f.retried = false → exec (.rejoinDeparture how) s = .next (react { u with
        line := { u.line with list := insertFrame { f with retried := true } u.line.list } })))) ∧
  (∀ (how : Departure) (o : OnLine) (s : State), s.line.onLine = some o → (how = .sent ∨ how = .voided) →
    s.line.heard.length + 1 ≠ o.bits.length → s.line.heard.length + 2 ≠ o.bits.length →
    ∀ c ∈ [Instr.reportDeparture how, .alertDeparture how, .rejoinDeparture how, .claimFrameDeparture 0 how,
        .claimFrameDeparture 1 how, .releaseDeparture 0 how, .releaseDeparture 1 how], exec c s = .next s) ∧
  (∀ (o : OnLine) (s : State) (n : Nat), s.line.onLine = some o →
    n = (if s.line.heard.getLast? = some false ∧ o.bits[s.line.heard.length - 1]? = some true then s.line.heard.length
      else s.line.heard.length + 1) →
    (n < 10 ∨ 27 + 9 * payloadLength o.bits < n ∨ o.bits[n - 1]? ≠ some true) →
    ∀ c ∈ [Instr.reportDeparture .abandoned, .alertDeparture .abandoned, .rejoinDeparture .abandoned,
        .claimFrameDeparture 0 .abandoned, .claimFrameDeparture 1 .abandoned, .releaseDeparture 0 .abandoned,
        .releaseDeparture 1 .abandoned], exec c s = .next s) ∧
  (∀ (o : OnLine) (st : StationNo) (level : Bool) (c : Instr) (s : State), s.pending = [] → s.line.onLine = some o →
    o.bits = frameBits (frameKindCode o.frame.kind) st.val 15 o.frame.payload → o.frame.payload.length ≤ 15 →
    s.line.condition ≠ .stuck → s.line.dominantRun < 65 → s.line.heard.length + 1 = o.bits.length →
    s.line.heard.getLast? = some level → departureCommand o.frame (if level then .sent else .voided) = some c →
    step s = exec c s) ∧
  (∀ s : State, s.line.condition = .stuck → (∃ f ∈ s.line.list, f.kind = .report) →
    exec (.reportDeparture .discarded) s = .next { s with
      line := { s.line with list := takeOut (fun f => f.kind == .report) s.line.list } }) ∧
  (∀ (ch : ChannelId) (s : State), (s.line.condition = .stuck ∨ s.line.listenIn.running = true) → (s.chan ch).phase = .releasing →
    (∃ f ∈ s.line.list, f.isFor .release ch = true) →
    exec (.releaseDeparture ch .discarded) s = .next (react ({ s with
      line := { s.line with list := takeOut (fun f => f.isFor .release ch) s.line.list } }.modChan ch (fun c =>
        { c with phase := .idle, claim := none }))))

/-- R136, R149 to R151, R100: the idle count and the dominant run bit by bit between frames; the idle and stray bit events; the 65th
dominant bit makes the line STUCK, which raises LINE_STUCK, withdraws every measurement whose claim is not yet ACTIVE and discards the
RELEASE and REPORT frames; the line's return starts the 20 ms listen-in, and its end places a REJOIN. The model's choice: the
assembler is READY after a frame that STUCK abandons (assumption log 33). That a timer which stops stands at 0 and that a released
claim's timers go on without effect is the model's choice (assumption log 38); what a channel keeps of an ended measurement is
inferred from the rules (log 39). -/
def Obligations.LineTroubleBeginsAndEnds : Prop :=
  (∀ l : Line, (l.condition = .stuck ∨ (l.assembler ≠ .receiving ∧ l.heard = []) ∨
        (18 ≤ l.heard.length ∧ 29 + 9 * payloadLength l.heard ≤ l.heard.length)) →
      readBit true l = { l with
        heard := [], check := 0, spacerFault := false, objecting := false, dominantRun := 0
        idleCount := min 11 (l.idleCount + 1)
        condition := if l.condition = .stuck then .stuck else if 10 ≤ l.idleCount then .idle else .busy
        assembler := if l.condition ≠ .stuck ∧ 10 ≤ l.idleCount then .ready else l.assembler } ∧
      ((l.condition = .stuck ∨ l.idleCount ≠ 11 ∨ l.assembler ≠ .ready) → readBit false l = { l with
        heard := [], check := 0, spacerFault := false, objecting := false, idleCount := 0
        dominantRun := min 65 (l.dominantRun + 1)
        condition := if l.condition = .stuck then .stuck else .busy }) ∧
      (l.condition ≠ .stuck → l.idleCount = 11 → l.assembler = .ready → readBit false l = { l with
        heard := [false], check := 0, spacerFault := false, objecting := false, idleCount := 0
        dominantRun := min 65 (l.dominantRun + 1), condition := .busy, assembler := .receiving })) ∧
  ∀ s : State,
    (s.line.onLine = none → s.line.condition ≠ .stuck →
      (s.line.assembler ≠ .receiving ∨ s.line.objecting = true →
        exec .lineIdle s = .next { s with line := { s.line with
          condition := .idle, idleCount := 11, dominantRun := 0, assembler := .ready, objecting := false
          heard := [], check := 0, spacerFault := false } }) ∧
      (s.line.assembler ≠ .receiving → s.line.idleCount < 11 →
          (s.line.heard = [] ∨ (18 ≤ s.line.heard.length ∧ 29 + 9 * payloadLength s.line.heard ≤ s.line.heard.length)) →
        (s.line.dominantRun < 64 → exec .strayBit s = .next { s with line := readBit false s.line }) ∧
        (64 ≤ s.line.dominantRun → exec .strayBit s = exec .stuckEntry s))) ∧
    (s.line.condition ≠ .stuck → ∃ w u v t, exec .stuckEntry s = .next (react t) ∧
      w = raise .lineStuck { s with line := { s.line with
        condition := .stuck, idleCount := 0, dominantRun := 65, listenIn := ⟨false, 0, 0⟩, onLine := none, objecting := false
        heard := [], check := 0, spacerFault := false
        assembler := if s.line.assembler = .receiving then .ready else s.line.assembler } } ∧
      TroubleTaken 0 w u ∧ TroubleTaken 1 u v ∧
      t = { v with
        channels := t.channels
        line := { v.line with list := v.line.list.filter (fun f => decide (f.kind ≠ .release ∧ f.kind ≠ .report)) } } ∧
      ∀ ch, t.chan ch = if (v.chan ch).phase = .releasing then { v.chan ch with phase := .idle, claim := none } else v.chan ch) ∧
    (s.line.condition = .stuck → exec .stuckEntry s = .next s ∧
      exec .lineReturn s = .next { s with line := { s.line with
        condition := .idle, idleCount := 11, dominantRun := 0, assembler := .ready, listenIn := ⟨true, 0, 20000⟩ } }) ∧
    (s.line.listenIn.running = true →
      exec .returnListenInEnd s = .next (react { s with line := { s.line with
        listenIn := ⟨false, 0, 0⟩
        list := if s.line.list.any (fun f => f.kind == .rejoin) then s.line.list
          else insertFrame ⟨.rejoin, [3], none, false⟩ s.line.list } }))

/-- R144, R152, R143, R100, R101: a frame of the station's own number raises the duplicate condition once, which withdraws every
measurement whose claim is not yet ACTIVE; frames with the sources 8 to 14, REPORT, ALERT and unknown kinds, a REJOIN, RELEASE or
CLAIM of another source, destination or length than its kind has, a REQUEST of another source or destination or without payload, and
voided frames are discarded. Channel 0 withdraws before channel 1 (the model's choice, assumption log 33). That a timer which stops
stands at 0 and that a released claim's timers go on without effect is the model's choice (assumption log 38); what a channel keeps of
an ended measurement is inferred from the rules (log 39). -/
def Obligations.OwnNumberRaisesTheDuplicateAndOthersAreDiscarded : Prop :=
  ∀ s : State, FrameReady s →
    (∀ k d payload, s.line.duplicate = true → exec (.ownNumberFrameTaken k d payload) s = .next (frameEnded s)) ∧
    (s.line.duplicate = false → ∃ w u t,
      w = raise .duplicateStation { frameEnded s with line := { (frameEnded s).line with duplicate := true } } ∧
      TroubleTaken 0 w u ∧ TroubleTaken 1 u t ∧
      ∀ k d payload, exec (.ownNumberFrameTaken k d payload) s = .next (react t)) ∧
    (∀ f : RxFrame, exec (.discardedFrame f true) s = .next (frameEnded s)) ∧
    (∀ f : RxFrame, f.source.toNat ≠ s.station.number.val →
      (8 ≤ f.source.toNat ∧ f.source.toNat ≤ 14) ∨ f.kind = 3 ∨ 5 ≤ f.kind.toNat ∨
        (f.kind.toNat < 3 ∧ (f.source = 15 ∨ f.dest ≠ 15 ∨
          f.payload.length ≠ (if f.kind = 0 then 1 else if f.kind = 1 then 2 else 4))) ∨
        (f.kind = 4 ∧ (f.source ≠ 15 ∨ f.payload = [] ∨ (f.dest ≠ 15 ∧ f.dest.toNat ≠ s.station.number.val))) →
      exec (.discardedFrame f false) s = .next (frameEnded s))

/-- R136, R137, R142 to R144, R171, R173, Table 10-1, Table 10-4, Table 11-3: a frame is read by the length it carries. The bits a
station sends read back as their fields; a line that hears them from idle has assembled exactly them, with their check and no spacer
fault; any other bits up to a check byte are objected to and counted when a spacer is dominant or the check differs, and not
otherwise; and a frame heard whole is taken at its end bit as the command of its row, voided where its objection slot is dominant. A
REQUEST is the row of its kind, sub-kind, query kind, scope or setup item with the operands in their order and the bytes beyond them
as its rest, no byte of it lost; SETUP items 1 to 4 are segment entries, an unlisted item is a SETUP without operands, and an unlisted
kind, sub-kind, query kind or scope or a missing byte is the row that answers BAD_KIND. Two things here are the model's choice. Where
the bits of a RECEIVE_CHECK_FAILURE are not those of the frame being assembled, the line hears them from idle (assumption log 34): the
clause on that command covers any `heard`. And a step on an empty queue runs the first due event in the model's order (assumption log
1), which the clauses on `step` rest on. -/
def Obligations.FramesAreReadBitByBit : Prop :=
  (∀ (kind source dest : BitVec 4) (bits : List Bool) (bytes : List Byte) (l m : Line), bytes.length ≤ 15 →
    bits = frameBits kind.toNat source.toNat dest.toNat bytes →
    l.condition = .idle → l.idleCount = 11 → l.assembler = .ready → l.heard = [] → l.check = 0 → l.spacerFault = false →
    m = bits.foldl (fun k b => readBit b k) l →
    bits.length = 29 + 9 * bytes.length ∧ frameRead bits = ⟨kind, source, dest, bytes⟩ ∧
      m = { l with
        condition := .busy, idleCount := 1, dominantRun := 0, assembler := .ready, objecting := false, heard := bits
        check := crc8 (byteOf (16 * kind.toNat + source.toNat) :: byteOf (16 * dest.toNat + bytes.length) :: bytes)
        spacerFault := false }) ∧
  (∀ (bytes : List Byte) (check : Byte) (spacers bits : List Bool) (n : Nat) (bad : Bool) (s : State), FrameReady s →
    bytes.length = n + 2 → spacers.length = n + 2 →
    bits = false :: (List.zipWith (fun b x => bitsOf b ++ [x]) bytes spacers).flatten ++ bitsOf check →
    n = fieldAt bits 15 4 → (bad = true ↔ false ∈ spacers ∨ crc8 bytes ≠ check) →
    (s.line.heard = bits → s.line.assembler = .receiving ∧ s.line.check = crc8 bytes ∧
      (s.line.spacerFault = true ↔ false ∈ spacers)) →
    (bad = true → ∃ t, exec (.receiveCheckFailure bytes check spacers) s = .next t ∧
      t = { s with line := t.line, counters := { s.counters with checkFailures := satCount s.counters.checkFailures } } ∧
      t.line.objecting = true ∧ t.line.heard = bits ∧ t.line.assembler = .receiving ∧ t.line.list = s.line.list ∧
      t.line.duplicate = s.line.duplicate ∧ t.line.listenIn = s.line.listenIn ∧ t.line.onLine = none) ∧
    (bad = false → exec (.receiveCheckFailure bytes check spacers) s = .next s)) ∧
  (∀ s : State, s.pending = [] → FrameReady s → s.line.dominantRun < 65 → 18 ≤ s.line.heard.length →
    29 + 9 * payloadLength s.line.heard ≤ s.line.heard.length →
    (s.line.heard[27 + 9 * payloadLength s.line.heard]? = some false →
      step s = exec (.discardedFrame (frameRead s.line.heard) true) s) ∧
    (s.line.heard[27 + 9 * payloadLength s.line.heard]? = some true →
      step s = exec (frameCommand s.station.number (frameRead s.line.heard)) s)) ∧
  (∀ (number st : StationNo) (src : BitVec 4), stationOf src = some st →
    (∀ k d payload, st = number → frameCommand number ⟨k, src, d, payload⟩ = .ownNumberFrameTaken k d payload) ∧
    (st ≠ number →
      (∀ cause, frameCommand number ⟨0, src, 15, [cause]⟩ = .rejoinTaken src cause) ∧
      (∀ a b, frameCommand number ⟨1, src, 15, [a, b]⟩ = .releaseTaken src a b) ∧
      (∀ a b c d, frameCommand number ⟨2, src, 15, [a, b, c, d]⟩ = .claimTaken src a b c d) ∧
      (∀ k d payload, (k = 3 ∨ 5 ≤ k.toNat) → frameCommand number ⟨k, src, d, payload⟩ = .discardedFrame ⟨k, src, d, payload⟩ false)) ∧
    (∀ payload, payload ≠ [] → frameCommand number ⟨4, 15, 15, payload⟩ = requestCommand true payload ∧
      ∀ d : BitVec 4, d.toNat = number.val → frameCommand number ⟨4, 15, d, payload⟩ = requestCommand false payload)) ∧
  (∀ (b : Bool) (payload : List Byte), payload ≠ [] → requestOf (requestCommand b payload) = some (b, payload)) ∧
  ∀ (b : Bool) (extra : List Byte) (via : Via) (take : List Byte → Instr), via = ⟨b, extra⟩ →
    take = (fun payload => requestCommand b (payload ++ extra)) →
    (∀ port pairs reach n intrusive, take [1, port, pairs, reach, n, intrusive] = .measure via port pairs reach n intrusive) ∧
    (∀ hi lo reach n period, take [2, hi, lo, reach, n, period] = .sweep via hi lo reach n period) ∧
    (∀ (port : Byte) (other : BitVec 6),
      take [3, port, byteOf (4 * other.toNat)] = .cancel via port other ∧
      take [3, port, byteOf (4 * other.toNat + 1)] = .cancelAll via port other ∧
      take [3, port, byteOf (4 * other.toNat + 2)] = .cancelSweep via false port other ∧
      take [3, port, byteOf (4 * other.toNat + 3)] = .cancelSweep via true port other) ∧
    (∀ port, take [4, port, 0] = .restart via port ∧ take [4, port, 1] = .restartFull via port ∧
      (∀ grade, take [4, port, 2, grade] = .force via port grade) ∧
      (∀ grades pref, take [4, port, 3, grades, pref] = .offer via port grades pref) ∧
      take [4, port, 4] = .enable via port ∧ take [4, port, 5] = .disable via port ∧
      ∀ sub : Byte, 5 < sub.toNat → take [4, port, sub] = .badKindRequest b ([4, port, sub] ++ extra)) ∧
    take [5, 0] = .querySummary via ∧
    (∀ port page, take [5, 1, port, page] = .queryPort via port page ∧ take [5, 2, port, page] = .queryCounters via port page) ∧
    (∀ port, take [5, 3, port] = .queryDiagHead via port ∧ take [5, 5, port] = .queryLength via port) ∧
    (∀ port pair index, take [5, 4, port, pair, index] = .queryEcho via port pair index) ∧
    (∀ a, take [5, 6, a] = .queryStation via a ∧ take [5, 7, a] = .queryClaimEntry via a) ∧
    (∀ query : Byte, 7 < query.toNat → take [5, query] = .badKindRequest b ([5, query] ++ extra)) ∧
    (∀ cls hi lo, take [6, 0, cls, hi, lo] = .setup via 0 [cls, hi, lo]) ∧
    (∀ (i : Fin 4) (port hi lo : Byte),
      take [6, byteOf (1 + i.val), port, hi, lo] = .setupSegmentEntry via i port hi lo) ∧
    (∀ item v w : Byte, item.toNat ∈ [5, 6, 8, 9, 25] → take [6, item, v, w] = .setup via item [v, w]) ∧
    (∀ item v : Byte, item.toNat ∈ [7, 10, 11, 12, 13, 14, 15, 16, 17, 18, 19, 20, 21, 22, 23, 24, 26, 27] →
      take [6, item, v] = .setup via item [v]) ∧
    (∀ item : Byte, 27 < item.toNat → take [6, item] = .setup via item []) ∧
    take [7] = .lock via ∧ take [8] = .calibrate via ∧
    (∀ port, take [9, 0, port] = .resetPort via port ∧ take [9, 1, port] = .resetStation via port ∧
      ∀ scope : Byte, 1 < scope.toNat → take [9, scope, port] = .badKindRequest b ([9, scope, port] ++ extra)) ∧
    (∀ kind : Byte, kind = 0 ∨ 9 < kind.toNat → take [kind] = .badKindRequest b (kind :: extra)) ∧
    ∀ payload, BytesMissing payload → requestCommand b payload = .badKindRequest b payload

/-! ### Check byte, distance unit and calibration -/

/-- R137, R138, R142: the check starts at 0 and takes the covered bytes most significant bit first, shifted left, its leftmost bit exclusive-ORed
with the incoming bit deciding on 00000111b; a frame carries it after the bytes it covers, the receiver compares it with the byte it
reads, and the covered bytes with their own check leave 0. The last clause is the model's choice where it gives RECEIVE_CHECK_FAILURE to
a line that has heard nothing, which then hears the bits of the command from idle (assumption log 34). -/
def Obligations.CheckByteIsTheCrcOfTheCoveredBytes : Prop :=
  crc8 [] = 0 ∧
  (∀ (bytes : List Byte) (b : Byte), crc8 (bytes ++ [b]) =
    [7, 6, 5, 4, 3, 2, 1, 0].foldl (fun (c : Byte) i =>
      if (c.getLsbD 7 != b.getLsbD i) = true then (c <<< 1) ^^^ 0b00000111#8 else c <<< 1) (crc8 bytes)) ∧
  (∀ bytes : List Byte, crc8 (bytes ++ [crc8 bytes]) = 0) ∧
  (∀ (kind source dest : Nat) (payload : List Byte), frameBits kind source dest payload =
    false :: ((byteOf (16 * kind + source) :: byteOf (16 * dest + payload.length) :: payload).flatMap
        (fun b => [b.getLsbD 7, b.getLsbD 6, b.getLsbD 5, b.getLsbD 4, b.getLsbD 3, b.getLsbD 2, b.getLsbD 1, b.getLsbD 0, true])) ++
      bitsOf (crc8 (byteOf (16 * kind + source) :: byteOf (16 * dest + payload.length) :: payload)) ++ [true, true]) ∧
  (∀ (kind source dest : BitVec 4) (payload covered : List Byte) (check : Byte) (s : State), FrameReady s → s.line.heard = [] →
    s.counters.checkFailures ≠ 65535 → payload.length ≤ 15 →
    covered = byteOf (16 * kind.toNat + source.toNat) :: byteOf (16 * dest.toNat + payload.length) :: payload →
    ∃ t, exec (.receiveCheckFailure covered check (List.replicate (payload.length + 2) true)) s = .next t ∧
      (t.counters.checkFailures ≠ s.counters.checkFailures ↔ crc8 covered ≠ check))

/-- R110 to R113: the distance of a time t is the greatest d that the exact sum of the delays of its decimetres allows: the delay of each
decimetre is that of the first segment whose boundary lies beyond it, or of the last populated segment beyond them all (of entry 0
where none is populated), and the division truncates once. The walk never yields a shorter distance for a longer time, and a distance
beyond 4095 is clamped. -/
def Obligations.SegmentWalkIsExactAndNeverDecreases : Prop :=
  ∀ (delays : Vector Nat 8) (table : Vector Segment 4), (∀ i : Fin 8, 3500 ≤ delays[i]) → TableOk table →
    (∀ (tau : Nat → Nat), tau 0 = 0 →
      (∀ (d : Nat) (i : Fin 4) (k : Fin 8), table[i].cls = k.val →
        (d < table[i].boundary ∨ table[i].boundary = table[3].boundary) →
        (∀ j : Fin 4, j < i → table[j].boundary ≤ d ∧ table[j].boundary ≠ table[3].boundary) → tau (d + 1) = tau d + delays[k]) →
      ∀ t, tau (segmentWalk delays table t) ≤ 10 * t ∧ 10 * t < tau (segmentWalk delays table t + 1)) ∧
    (∀ t u, t ≤ u → segmentWalk delays table t ≤ segmentWalk delays table u) ∧
    (∀ q q0, oneWayTime q q0 = if q ≤ q0 then 0 else (q - q0) * 250) ∧
    ∀ t, walkDistance delays table t =
      if segmentWalk delays table t ≤ 4095 then (segmentWalk delays table t, false) else (4095, true)

/-- R105, R106, R108, R109, R114 to R117: the record interleaves the four phases; the residual is the record less the template; the echoes
are the runs that start at the threshold, go on at half of it with the same sign, and take the greatest magnitude as their peak; each
is weighed into distance, compensated amplitude and ratio; and an echo less than 5 dm beyond the one kept before it merges into it. -/
def Obligations.EchoesAreDetectedWeighedAndMerged : Prop :=
  (∀ (v : PerPhase (List Int)) (w : Nat), v.k0.length = w → v.k1.length = w → v.k2.length = w → v.k3.length = w →
    (interleave v).length = 4 * w ∧ ∀ i, i < w →
      (interleave v)[4 * i]? = v.k0[i]? ∧ (interleave v)[4 * i + 1]? = v.k1[i]? ∧ (interleave v)[4 * i + 2]? = v.k2[i]? ∧
        (interleave v)[4 * i + 3]? = v.k3[i]?) ∧
  (∀ (record template : List Int), (residual record template).length = record.length ∧ ∀ i x, record[i]? = some x →
    (residual record template)[i]? = some (x - template.getD i 0)) ∧
  (∀ (thr start : Nat) (r : List Int), ∃ runs : List (Nat × Nat),
    runs.Pairwise (fun a b => a.2 ≤ b.1) ∧
    List.Forall₂ (fun (run : Nat × Nat) (e : RawEcho) =>
      start ≤ run.1 ∧ run.1 < run.2 ∧ run.2 ≤ r.length ∧ e.arrival = run.1 ∧ thr ≤ (r.getD run.1 0).natAbs ∧
      (∀ q, run.1 < q → q < run.2 → thr / 2 ≤ (r.getD q 0).natAbs ∧ (0 < r.getD q 0 ↔ 0 < r.getD run.1 0)) ∧
      (run.2 < r.length → ¬(thr / 2 ≤ (r.getD run.2 0).natAbs ∧ (0 < r.getD run.2 0 ↔ 0 < r.getD run.1 0))) ∧
      (∃ q, run.1 ≤ q ∧ q < run.2 ∧ e.peak = r.getD q 0) ∧
      ∀ q, run.1 ≤ q → q < run.2 → (r.getD q 0).natAbs ≤ e.peak.natAbs) runs (detectEchoes thr start r) ∧
    ∀ q, start ≤ q → q < r.length → thr ≤ (r.getD q 0).natAbs → ∃ run ∈ runs, run.1 ≤ q ∧ q < run.2) ∧
  (∀ (st : EchoSettings) (q0 : Nat) (launch : Int) (e : RawEcho) (d : Nat) (clamped : Bool) (ac : Int),
    (d, clamped) = walkDistance st.delays st.table (oneWayTime e.arrival q0) →
    ac = max (-2047) (min 2047 (Int.tdiv (e.peak * (256 + (st.alpha * d / 16 : Nat))) 256)) →
    weighEcho st q0 launch e = ⟨e.arrival, e.peak, d, clamped, ac, max (-64) (min 64 (Int.tdiv (ac * 64) launch))⟩) ∧
  (∀ (st : EchoSettings) (launch : Int), mergeClose st launch [] = [] ∧ (∀ e, mergeClose st launch [e] = [e]) ∧
    ∀ (kept e : WorkEcho) (es : List WorkEcho),
      (kept.distance + 5 ≤ e.distance → mergeClose st launch (kept :: e :: es) = kept :: mergeClose st launch (e :: es)) ∧
      (e.distance < kept.distance + 5 → e.peak.natAbs ≤ kept.peak.natAbs →
        mergeClose st launch (kept :: e :: es) = mergeClose st launch (kept :: es)) ∧
      ∀ ac, e.distance < kept.distance + 5 → kept.peak.natAbs < e.peak.natAbs →
        ac = max (-2047) (min 2047 (Int.tdiv (e.peak * (256 + (st.alpha * kept.distance / 16 : Nat))) 256)) →
        mergeClose st launch (kept :: e :: es) = mergeClose st launch
          (⟨kept.arrival, e.peak, kept.distance, kept.clamped, ac, max (-64) (min 64 (Int.tdiv (ac * 64) launch))⟩ :: es)) ∧
  ∀ (st : EchoSettings) (q0 : Nat) (template : List Int) (w : WorkingSet) (launch : Int) (start : Nat),
    launch = greatest (((interleave (w.samples.get w.driven)).drop q0).take 16) → 256 ≤ launch →
    start = q0 + (match w.reach with | .short => 16 | .medium => 32 | .long => 64) →
    processPair st q0 template w = resultOf launch
      ((mergeClose st launch (((detectEchoes st.detect start
            (residual (interleave (w.samples.get w.driven)) template)).map (weighEcho st q0 launch)).filter
          (fun e => decide (st.mismatch ≤ e.ratio.natAbs)))).map
        (classifyEcho st launch (([Pair.A, .B, .C, .D].filter (fun x => x ≠ w.driven)).map
          (fun x => (x, detectEchoes st.detect start (interleave (w.samples.get x)))))))

/-- R107, R116, R118 to R122: every pair result of the distance unit: at most 5 echoes, in ascending distance at least 5 dm apart, each
field in its range; NO_LAUNCH exactly below 256. An echo is a JUNCTION within 15 dm of the nearest expected boundary (the lower index
at a tie) while its ratio is below the limit; else CROSS_SHORT with the listening pair of the greatest ratio within 8 quarter-ticks
(the lower letter at a tie); else by its ratio. The verdict is the nearest fault, else MISMATCH at the nearest mismatch, else GOOD. -/
def Obligations.PairResultsAreClassifiedAndKeepTheirForm : Prop :=
  (∀ (st : EchoSettings) (q0 : Nat) (template : List Int) (w : WorkingSet) (r : PairResult),
    processPair st q0 template w = r →
    r.echoes.length ≤ 5 ∧ r.echoes.Pairwise (fun a b => a.distance + 5 ≤ b.distance) ∧
    (∀ e ∈ r.echoes, e.distance ≤ 4095 ∧ -2047 ≤ e.amplitude ∧ e.amplitude ≤ 2047 ∧ -64 ≤ e.ratio ∧ e.ratio ≤ 64 ∧
      st.mismatch ≤ e.ratio.natAbs ∧ (e.junction.isSome ↔ e.cls = .junction) ∧ (e.partner.isSome ↔ e.cls = .crossShort) ∧
      e.partner ≠ some w.driven) ∧
    (r.distance.isSome ↔ (r.verdict = .openEnd ∨ r.verdict = .short ∨ r.verdict = .crossShort ∨ r.verdict = .mismatch)) ∧
    (r.verdict = .noLaunch → r.echoes = [] ∧ r.truncated = false) ∧ r.verdict ≠ .busy ∧ r.verdict ≠ .notMeasured ∧
    ∃ a, r.launch = some a ∧ a = greatest (((interleave (w.samples.get w.driven)).drop q0).take 16) ∧
      (r.verdict = .noLaunch ↔ a < 256)) ∧
  (∀ (st : EchoSettings) (launch : Int) (listening : List (Pair × List RawEcho)) (e : WorkEcho) (near : Fin 4 → Prop)
      (rho : RawEcho → Nat) (hits : Pair → List RawEcho → RawEcho → Prop),
    (∀ i : Fin 4, near i ↔ st.table[i].junction = true ∧ (∀ j : Fin 4, j < i → st.table[j].boundary < st.table[i].boundary) ∧
      0 < st.table[i].boundary ∧ e.distance ≤ st.table[i].boundary + 15 ∧ st.table[i].boundary ≤ e.distance + 15) →
    (∀ y, rho y = (max (-64) (min 64 (Int.tdiv ((max (-2047) (min 2047
      (Int.tdiv (y.peak * (256 + (st.alpha * e.distance / 16 : Nat))) 256))) * 64) launch)) : Int).natAbs) →
    (∀ x ys y, hits x ys y ↔ (x, ys) ∈ listening ∧ y ∈ ys ∧ y.arrival ≤ e.arrival + 8 ∧ e.arrival ≤ y.arrival + 8 ∧
      st.cross ≤ rho y) →
    TableOk st.table → listening.Pairwise (fun a b => a.1 ≠ b.1) →
    (∀ i, near i → e.ratio.natAbs < st.junctionLimit →
      (∀ j, near j → ((st.table[i].boundary : Int) - e.distance).natAbs < ((st.table[j].boundary : Int) - e.distance).natAbs ∨
        (((st.table[i].boundary : Int) - e.distance).natAbs = ((st.table[j].boundary : Int) - e.distance).natAbs ∧ i ≤ j)) →
      classifyEcho st launch listening e =
        ⟨e.distance, e.amplitude, e.ratio, decide (0 < e.peak), .junction, e.clamped, some i.val, none⟩) ∧
    (((∀ i, ¬near i) ∨ st.junctionLimit ≤ e.ratio.natAbs) →
      (∀ x ys y, e.ratio ≤ -(st.mismatch : Int) → hits x ys y →
        (∀ x' ys' y', hits x' ys' y' → rho y' < rho y ∨ (rho y' = rho y ∧
          (listening.map Prod.fst).idxOf x ≤ (listening.map Prod.fst).idxOf x')) →
        classifyEcho st launch listening e =
          ⟨e.distance, e.amplitude, e.ratio, decide (0 < e.peak), .crossShort, e.clamped, none, some x⟩) ∧
      (-(st.mismatch : Int) < e.ratio ∨ (∀ x ys y, ¬hits x ys y) →
        classifyEcho st launch listening e = ⟨e.distance, e.amplitude, e.ratio, decide (0 < e.peak),
          if 48 ≤ e.ratio then .openEnd else if e.ratio ≤ -48 then .short else if 0 < e.ratio then .highZ else .lowZ,
          e.clamped, none, none⟩))) ∧
  ∀ (launch : Int) (l : List Echo) (faults : List Echo), faults = l.filter (fun e => decide (e.cls = .openEnd ∨ e.cls = .short ∨
      e.cls = .crossShort)) →
    (resultOf launch l).echoes = l.take 5 ∧ (resultOf launch l).truncated = decide (5 < l.length) ∧
    (resultOf launch l).launch = some launch ∧
    (∀ e es, faults = e :: es → (resultOf launch l).distance = some e.distance ∧
      (resultOf launch l).verdict = (if e.cls = .openEnd then .openEnd else if e.cls = .short then .short else .crossShort)) ∧
    (∀ e es, faults = [] → l.filter (fun e => decide (e.cls = .highZ ∨ e.cls = .lowZ)) = e :: es →
      (resultOf launch l).distance = some e.distance ∧ (resultOf launch l).verdict = .mismatch) ∧
    (faults = [] → l.filter (fun e => decide (e.cls = .highZ ∨ e.cls = .lowZ)) = [] →
      (resultOf launch l).distance = none ∧ (resultOf launch l).verdict = .good)

/-- R185, R91, R92: calibration takes the populated ports in ascending order, 12288 µs each, on internal termination, with 64 shots of
each reach on each pair in letter order, a pulse 4 µs into every 16 µs. The record of a pair and reach is the interleaved average of
the 16 shots of each phase, truncated toward zero; the template is its first 128 values; Q0 is the first of 128 positions of the SHORT
record at half the greatest value, or 127 where none is above 0; a port with a Q0 above 63 is faulty. Two things here are the model's
choice: a sample or shot that the input does not hold counts as 0 (assumption log 15), and the step on an empty queue with nothing due
is the clock that paces calibration (assumption log 1), which the last clause rests on. -/
def Obligations.CalibrationMeasuresEveryPort : Prop :=
  (∀ (reach : Reach) (shots : List (List Int)) (w : Nat), w = (match reach with | .short => 256 | .medium => 768 | .long => 1536) →
    (calibrationRecord reach shots).length = 4 * w ∧
    ∀ (t k slot : Nat), t < w → (k, slot) ∈ [(0, 0), (1, 2), (2, 1), (3, 3)] →
      (calibrationRecord reach shots)[4 * t + k]? = some (Int.tdiv (((List.range 16).map (fun j =>
        max (-2048) (min 2047 ((shots.getD (4 * j + slot) []).getD t 0)))).sum) 16)) ∧
  (∀ (input : CalibrationInput) (x : Pair) (record : List Int) (top : Int),
    record = (calibrationRecord .short (input.get x).short).take 128 →
    (∀ v ∈ record, v ≤ top) → top ∈ record →
    (top ≤ 0 → (calibratePort input).q0.get x = 127) ∧
    (0 < top → ∃ v, record[(calibratePort input).q0.get x]? = some v ∧ Int.tdiv top 2 ≤ v ∧
      ∀ i u, i < (calibratePort input).q0.get x → record[i]? = some u → u < Int.tdiv top 2) ∧
    (calibratePort input).templates.get x = ⟨(calibrationRecord .short (input.get x).short).take 128,
      (calibrationRecord .medium (input.get x).medium).take 128, (calibrationRecord .long (input.get x).long).take 128⟩) ∧
  (∀ cal : PortCal, calFaulty cal = true ↔ 63 < cal.q0.a ∨ 63 < cal.q0.b ∨ 63 < cal.q0.c ∨ 63 < cal.q0.d) ∧
  ∀ (p : PortId) (s t : State) (elapsed shot : Nat), s.pending = [] → due s = none → s.station.phase = .calibrating →
    elapsed = s.station.calibrating.tick.elapsed → shot = elapsed % 12288 / 16 → step s = .next t →
    ∀ on : Bool, (on = true ↔ p.val < populationCount s.station.population ∧ elapsed / 12288 = p.val) →
      (t.port p).front.terminated = on ∧
      (on = true → elapsed % 16 = 4 → (t.port p).front.launched = [.pulse
        (if shot < 192 then .A else if shot < 384 then .B else if shot < 576 then .C else .D)
        (if shot % 192 < 64 then 4 else if shot % 192 < 128 then 8 else 16)]) ∧
      ((on = false ∨ elapsed % 16 ≠ 4) → (t.port p).front.launched = (s.port p).front.launched)
end

