-- ==== Sys2Proof/Laws/Training.lean ====
section
/-! SUPPORT. What the shared operations of link training do, once for each: entering a training state, the failed attempt, the
quality drop, the start of probing, and the markers that go out with the patterns. -/

namespace Sys2Proof.Machine

theorem enterSettling_spec (code : Nat) (a : Port) : EntersSettling code a (enterSettling code a) :=
  ⟨rfl, rfl, rfl, ⟨rfl, rfl, rfl, rfl, rfl⟩, ⟨rfl, rfl, rfl, rfl, rfl, rfl, rfl, rfl⟩, ⟨rfl, rfl, rfl, rfl, rfl⟩,
    ⟨rfl, rfl, rfl, rfl⟩⟩

theorem enterDormant_spec (a : Port) : EntersDormant a (enterDormant a) :=
  ⟨rfl, rfl, ⟨rfl, rfl, rfl, rfl, rfl⟩, ⟨rfl, rfl, rfl, rfl, rfl, rfl, rfl, rfl⟩, rfl, rfl, rfl, rfl, rfl, rfl,
    ⟨rfl, rfl, rfl, rfl⟩⟩

theorem portReEntry_spec (code : Nat) (a : Port) : TakesReEntry code a (portReEntry code a) := by
  simp only [TakesReEntry, portReEntry]; split
  · exact enterSettling_spec _ _
  · exact enterDormant_spec _

/-- R18, R19: a failed attempt that brings no downshift test; the resolution fields stay. -/
theorem failAttempt_spec (p : PortId) (cause : FailureCause) (s : State)
    (h : countsFourPair cause = false ∨ NoDownshiftTest p s) :
    AttemptFailed p cause (fourPairFailure cause (s.port p).train) s (failAttempt p cause s) ∧ ((failAttempt p cause s).port p).res = (s.port p).res := by
  have hn : (fourPairFailure cause (s.port p).train && countTo15 (s.port p).train.fourPair == s.setup.downshiftAttempts && s.setup.downshiftEnable) = false := by
    rcases h with h | h | h | h
    · simp [fourPairFailure, h]
    · simp [fourPairFailure, h]
    · simp [countTo15, h]
    · simp [h]
  simp only [failAttempt, hn, Bool.false_eq_true, if_false]
  by_cases ha : (!(s.port p).train.runAlerted && decide (8 ≤ countTo15 (s.port p).train.consecutive)) = true
  · simp only [ha, if_true]
    have ha' : (s.port p).train.runAlerted = false ∧ 8 ≤ min 15 ((s.port p).train.consecutive + 1) := by simpa [countTo15] using ha
    refine ⟨⟨((OnlyPortAndEvents.modPort p _ s).trans (OnlyPortAndEvents.raise p _ _)).trans (OnlyPortAndEvents.modPort p _ _), ?_⟩, ?_⟩
    · simp only [ha']
      simp [enterBackoff, settleInto, noteFailure, clearAttempt, HoldReasons.empty, AttemptCleared, backoffTime, Timer.start, countTo15]
      have := ha'.2
      omega
    · simp [enterBackoff, settleInto]
  · simp only [ha, Bool.false_eq_true, if_false]
    have ha' : ¬ ((s.port p).train.runAlerted = false ∧ 8 ≤ min 15 ((s.port p).train.consecutive + 1)) := by simpa [countTo15] using ha
    refine ⟨⟨(OnlyPortAndEvents.modPort p _ s).trans (OnlyPortAndEvents.modPort p _ _), ?_⟩, ?_⟩
    · simp only [ha']
      simp [enterBackoff, settleInto, noteFailure, clearAttempt, HoldReasons.empty, AttemptCleared, backoffTime, Timer.start, countTo15]
      by_cases hr : (s.port p).train.runAlerted = true
      · simp [hr]
      · simp only [Bool.not_eq_true] at hr; simp [hr] at ha' ⊢; omega
    · simp [enterBackoff, settleInto]

/-- R17, R57: a quality drop of a port that is UP. -/
theorem qualityDrop_spec (p : PortId) (c : DropCause) (s : State) (hu : (s.port p).train.state = .up) :
    QualityDropped p c s (qualityDrop p c s) := by
  have key : (qualityDrop p c s) = (raise (.linkDown p) (s.modPort p (dropPort c))).modPort p (if s.setup.diagnose.has p then
     (fun pt => { holdPort addSettleHold pt with watch.dropSettle := Timer.start (settleTime s.setup.dropSettle) }) else portReEntry s.setup.wakeSettle) := by
    simp only [qualityDrop]; split
    · simp only [startDropSettle, hold, dropLink, State.modPort_modPort, State.modPort_setup, raise_setup]
    · simp only [reEnter, dropLink, raise_setup, State.modPort_setup]
  rw [key]
  refine ⟨((OnlyPortAndEvents.modPort p _ s).trans (OnlyPortAndEvents.raise p _ _)).trans (OnlyPortAndEvents.modPort p _ _), by simp, ?_⟩
  simp only [State.modPort_port_self, raise_port]
  by_cases hd : s.setup.diagnose.has p = true
  · simp [hd, holdPort, dropPort, hu, settleInto, clearAttempt, watchOff, addSettleHold, Timer.start, settleTime, HoldReasons.empty, AttemptCleared, Timer.off]
  · by_cases he : (s.port p).front.energy = true <;>
    simp [hd, he, portReEntry, enterSettling, enterDormant, dropPort, settleInto, clearAttempt, watchOff, HoldReasons.empty, AttemptCleared, Timer.off]

/-! ### Probing (R33) -/

@[simp] theorem beginProbing_train (pt : Port) : (beginProbing pt).train = pt.train := by
  simp only [beginProbing]; split <;> rfl
@[simp] theorem beginProbing_front (pt : Port) : (beginProbing pt).front = pt.front := by
  simp only [beginProbing]; split <;> rfl
@[simp] theorem beginProbing_watch (pt : Port) : (beginProbing pt).watch = pt.watch := by
  simp only [beginProbing]; split <;> rfl
@[simp] theorem beginProbing_store (pt : Port) : (beginProbing pt).store = pt.store := by
  simp only [beginProbing]; split <;> rfl

theorem beginProbing_res (pt : Port) :
    (beginProbing pt).res =
      { pt.res with probing := pt.res.probing || (mayProbe pt && (allQp pt.res).isNone) } := by
  simp only [beginProbing]
  cases hm : mayProbe pt <;> cases ha : (allQp pt.res).isNone <;> cases hp : pt.res.probing <;> simp
  all_goals rw [← hp]

/-! ### Markers (R30, R33 to R35) -/

@[simp] theorem sendPatterns_train (pt : Port) : (sendPatterns pt).train = pt.train := rfl
@[simp] theorem sendPatterns_res (pt : Port) : (sendPatterns pt).res = pt.res := rfl
@[simp] theorem sendPatterns_watch (pt : Port) : (sendPatterns pt).watch = pt.watch := rfl
@[simp] theorem sendPatterns_store (pt : Port) : (sendPatterns pt).store = pt.store := rfl

/-- R34, R35: the port whose own checks pass: DONE goes out, and with the partner's DONE heard before the link follows it. -/
theorem passChecks_spec (pt : Port) :
    (passChecks pt).res = { pt.res with checksPassed := true } ∧
      (passChecks pt).front = { pt.front with
        launched := .patterns pt.gradePairs ⟨pt.res.identified, pt.res.probedSent, true⟩ ::
          if pt.res.partnerDone then linkSignals pt else [] } ∧
      (passChecks pt).train.state = (if pt.res.partnerDone then .qualifying else pt.train.state) ∧
      (pt.res.partnerDone = false → (passChecks pt).timers.patternRepeat = Timer.start patternPeriod) ∧
      (passChecks pt).watch = pt.watch ∧ (passChecks pt).store = pt.store := by
  have hl : linkSignals (sendPatterns { pt with res.checksPassed := true }) = linkSignals pt := rfl
  simp only [passChecks, hl]
  cases h : pt.res.partnerDone <;> simp [enterQualifying, launchLink, sendPatterns, Port.gradePairs]

end Sys2Proof.Machine
end

