-- ==== Sys2Proof/Laws/Channels.lean ====
section
/-! SUPPORT. What ends a measurement, once for each case: giving an entry back with its claim sent or unsent, and a burst that ends
in a record. -/

namespace Sys2Proof.Machine

/-- What each outcome leaves of a measurement (R96, R98, Table 5-7). -/
theorem stopMeasurement_eq (o : StopOutcome) :
    stopMeasurement o = match o with
      | .cancelled => stoppedMeasurement
      | .portDisabled => stoppedMeasurement
      | .preempted => givenBackMeasurement
      | .withdrawn => givenBackMeasurement := by
  cases o <;> rfl

/-- What the end of a burst leaves of a measurement (R94, R95). -/
@[simp] theorem burstMeasurement_complete (n : Count16) (r : PerPair PairResult) :
    burstMeasurement (.complete n r) = endedMeasurement := rfl

@[simp] theorem burstMeasurement_busyLine (n : Count16) (r : PerPair PairResult) :
    burstMeasurement (.busyLine n r) = busyMeasurement := rfl

theorem releaseDiscarded_iff (s : State) :
    releaseDiscarded s = true ↔ s.line.condition = .stuck ∨ s.line.listenIn.running = true := by
  simp [releaseDiscarded]

/-- R99, R158: a sent claim is released. -/
theorem releaseClaim_spec (ch : ChannelId) (l : LocalClaim) (s : State) (hc : (s.chan ch).claim = some l) :
    ClaimReleased ch l s (releaseClaim ch s) := by
  simp only [ClaimReleased, releaseClaim, hc]
  by_cases h : s.line.condition = .stuck ∨ s.line.listenIn.running = true
  · rw [if_pos h, if_pos ((releaseDiscarded_iff s).2 h)]
    exact ⟨by simp, by simp, rfl⟩
  · rw [if_neg h, if_neg (fun x => h ((releaseDiscarded_iff s).1 x))]
    exact ⟨by simp, by simp, rfl⟩

/-- What releasing or dropping a claim leaves: everything but the channel and the transmit list. -/
structure OnlyChannelAndList (ch : ChannelId) (s t : State) : Prop where
  station : t.station = s.station
  setup : t.setup = s.setup
  ports : t.ports = s.ports
  queue : t.queue = s.queue
  sweep : t.sweep = s.sweep
  budget : t.budget = s.budget
  other : t.chan (otherChannel ch) = s.chan (otherChannel ch)
  claimCounter : t.claimCounter = s.claimCounter
  view : t.view = s.view
  counters : t.counters = s.counters
  sequence : t.sequence = s.sequence
  summary : t.summary = s.summary

theorem modChan_only (ch : ChannelId) (f : Channel → Channel) (s : State) : OnlyChannelAndList ch s (s.modChan ch f) :=
  ⟨rfl, rfl, rfl, rfl, rfl, rfl, State.modChan_chan_ne _ _ _ _ (otherChannel_ne ch), rfl, rfl, rfl, rfl, rfl⟩

theorem releaseClaim_only (ch : ChannelId) (s : State) : OnlyChannelAndList ch s (releaseClaim ch s) := by
  simp only [releaseClaim]
  split
  · exact modChan_only ch _ s
  · split
    · exact modChan_only ch _ s
    · exact ⟨rfl, rfl, rfl, rfl, rfl, rfl, by rw [placeFrame_chan]; exact State.modChan_chan_ne _ _ _ _ (otherChannel_ne ch),
        rfl, rfl, rfl, rfl, rfl⟩

theorem dropUnsentClaim_only (ch : ChannelId) (s : State) : OnlyChannelAndList ch s (dropUnsentClaim ch s) :=
  ⟨rfl, rfl, rfl, rfl, rfl, rfl, by rw [dropUnsentClaim, State.modChan_chan_ne _ _ _ _ (otherChannel_ne ch)]; rfl,
    rfl, rfl, rfl, rfl, rfl⟩

/-- Releasing or dropping a claim changes no field of a measurement. -/
theorem MeasurementOver.releaseClaim {drop : Channel → Channel} {c : Channel} {ch : ChannelId} {s : State}
    (h : s.chan ch = drop c) : MeasurementOver drop c ((releaseClaim ch s).chan ch) := by
  simp only [MeasurementOver, ← h, Machine.releaseClaim]
  split
  · rw [State.modChan_chan_self]
  · split
    · rw [State.modChan_chan_self]
    · rw [placeFrame_chan, State.modChan_chan_self]

theorem MeasurementOver.dropUnsentClaim {drop : Channel → Channel} {c : Channel} {ch : ChannelId} {s : State}
    (h : s.chan ch = drop c) : MeasurementOver drop c ((dropUnsentClaim ch s).chan ch) := by
  have : (Machine.dropUnsentClaim ch s).chan ch = { s.chan ch with phase := .idle, claim := none } :=
    State.modChan_chan_self _ _ _
  simp only [MeasurementOver, ← h, this]

/-- The measurement of a channel is given back (R68, R98). -/
theorem endWith_givesBack (ch : ChannelId) (m : Measurement) (e : Entry) (o : StopOutcome) (s : State)
    (hm : (s.chan ch).meas = some m) (he : heldEntry ch s = some e) (ht : e.target = m.port)
    (ho : o = .preempted ∨ o = .withdrawn) :
    GivesBack ch m.port e s (endWith ch o s) ∧ (endWith ch o s).chan ch = givenBackMeasurement (s.chan ch) ∧
      (endWith ch o s).line = s.line ∧ (endWith ch o s).setup = s.setup := by
  have key : endWith ch o s = ((setHolder m.port none s).modPort m.port (unholdPort s.setup.wakeSettle
      (fun h => { h with channel := false, await := h.await || (h.channel && automaticOrigin e.origin) }))).modChan ch
        givenBackMeasurement := by
    rcases ho with rfl | rfl <;> simp only [endWith, hm, giveBack, he, ht] <;> rfl
  rw [key]
  have hp : (setHolder m.port none s).port m.port = s.port m.port := rfl
  refine ⟨⟨rfl, ?_, ?_, ?_, ?_, ?_, rfl, rfl, rfl, rfl, rfl, rfl, rfl, rfl⟩, ?_, rfl, rfl⟩
  · intro q hq; exact State.modPort_port_ne _ _ _ _ (Ne.symm hq)
  · simp only [State.modChan_port, State.modPort_port_self, hp, unholdPort]
    split
    · simp only [portReEntry]; split <;> exact ⟨rfl, rfl, rfl, rfl⟩
    · exact ⟨rfl, rfl, rfl, rfl⟩
  · intro hs hh
    simp only [State.modChan_port, State.modPort_port_self, hp, unholdPort, hh]
    by_cases ha : e.origin = .drop ∨ e.origin = .downshift
    · have : automaticOrigin e.origin = true := by rcases ha with h | h <;> simp [h, automaticOrigin]
      rw [if_pos ha, if_neg (by simp [this, HoldReasons.empty])]
      simp [this]
    · have : automaticOrigin e.origin = false := by cases h : e.origin <;> simp_all [automaticOrigin]
      rw [if_neg ha, if_pos (by simp [this, hs, HoldReasons.empty])]
      simp only [TakesReEntry, portReEntry]
      split
      · exact enterSettling_spec _ _
      · exact enterDormant_spec _
  · rw [State.modChan_chan_self]; rfl
  · exact State.modChan_chan_ne _ _ _ _ (otherChannel_ne ch)
  · exact State.modChan_chan_self _ _ _

/-- R97, R98, R99: a pre-emption or withdrawal whose claim has been sent. -/
theorem stopNow_sent (ch : ChannelId) (m : Measurement) (e : Entry) (l : LocalClaim) (o : StopOutcome) (s : State)
    (hm : (s.chan ch).meas = some m) (he : heldEntry ch s = some e) (ht : e.target = m.port)
    (hc : (s.chan ch).claim = some l) (hl : l.state ≠ .queued) (ho : o = .preempted ∨ o = .withdrawn) :
    GivesBack ch m.port e s (stopNow ch o s) ∧ ClaimReleased ch l s (stopNow ch o s) := by
  obtain ⟨g, hch, hli, hsu⟩ := endWith_givesBack ch m e o s hm he ht ho
  have hs : stopNow ch o s = releaseClaim ch (endWith ch o s) := by
    simp only [stopNow]; rw [if_pos]; simp [claimSent, hc, hl]
  have hcl : ((endWith ch o s).chan ch).claim = some l := by rw [hch]; exact hc
  have hr := releaseClaim_spec ch l _ hcl
  have on := releaseClaim_only ch (endWith ch o s)
  rw [hs]
  obtain ⟨g1, g2, g3, g4, g5, g6, g7, g8, g9, g10, g11, g12, g13, g14⟩ := g
  have hport : ∀ q, (releaseClaim ch (endWith ch o s)).port q = (endWith ch o s).port q := fun q => by
    simp only [State.port, on.ports]
  refine ⟨⟨on.queue.trans g1, fun q hq => (hport q).trans (g2 q hq), by rw [hport]; exact g3, by rw [hport]; exact g4,
    .releaseClaim hch, on.other.trans g6, on.summary.trans g7, on.sequence.trans g8, on.budget.trans g9, on.view.trans g10,
    on.sweep.trans g11, on.counters.trans g12, on.claimCounter.trans g13, on.station.trans g14⟩, ?_⟩
  simp only [ClaimReleased, hli] at hr ⊢
  exact hr

/-- R88, R97, R98: a pre-emption or withdrawal whose claim has not been sent. -/
theorem stopNow_unsent (ch : ChannelId) (m : Measurement) (e : Entry) (o : StopOutcome) (s : State)
    (hm : (s.chan ch).meas = some m) (he : heldEntry ch s = some e) (ht : e.target = m.port)
    (hl : ∀ l, (s.chan ch).claim = some l → l.state = .queued) (ho : o = .preempted ∨ o = .withdrawn) :
    GivesBack ch m.port e s (stopNow ch o s) ∧ ClaimDropped ch s (stopNow ch o s) := by
  obtain ⟨g, hch, hli, hsu⟩ := endWith_givesBack ch m e o s hm he ht ho
  have hs : stopNow ch o s = dropUnsentClaim ch (endWith ch o s) := by
    simp only [stopNow]; rw [if_neg]
    simp only [claimSent]
    cases hc : (s.chan ch).claim with
    | none => simp
    | some l => simp [hl l hc]
  have on := dropUnsentClaim_only ch (endWith ch o s)
  rw [hs]
  obtain ⟨g1, g2, g3, g4, g5, g6, g7, g8, g9, g10, g11, g12, g13, g14⟩ := g
  have hport : ∀ q, (dropUnsentClaim ch (endWith ch o s)).port q = (endWith ch o s).port q := fun q => by
    simp only [State.port, on.ports]
  refine ⟨⟨on.queue.trans g1, fun q hq => (hport q).trans (g2 q hq), by rw [hport]; exact g3, by rw [hport]; exact g4,
    .dropUnsentClaim hch, on.other.trans g6, on.summary.trans g7, on.sequence.trans g8, on.budget.trans g9, on.view.trans g10,
    on.sweep.trans g11, on.counters.trans g12, on.claimCounter.trans g13, on.station.trans g14⟩, ?_⟩
  have h1 : (dropUnsentClaim ch (endWith ch o s)).chan ch = { (endWith ch o s).chan ch with phase := .idle, claim := none } :=
    State.modChan_chan_self _ _ _
  refine ⟨by rw [h1], by rw [h1], ?_⟩
  change { (endWith ch o s).line with list := takeOut (fun f => f.isFor .claim ch) (endWith ch o s).line.list } = _
  rw [hli]

end Sys2Proof.Machine
end

