-- ==== Sys2Proof/Laws/Departures.lean ====
section
/-! SUPPORT. Once: what one bit time may change on the line, and what the departure of the station's own frame does (R136, R147). -/

namespace Sys2Proof.Machine

open Sys2Proof

/-- One bit time: the counts, the condition, the assembler and the frame being assembled; the rest of the line is kept (R136). -/
theorem readBit_rest (b : Bool) (l : Line) : readBit b l =
    { l with
      condition := (readBit b l).condition, idleCount := (readBit b l).idleCount
      dominantRun := if b then 0 else min 65 (l.dominantRun + 1)
      assembler := (readBit b l).assembler, heard := (readBit b l).heard, check := (readBit b l).check
      spacerFault := (readBit b l).spacerFault, objecting := (readBit b l).objecting } := by
  have h1 : ∀ k : Line, readWithin b k = { k with
      condition := (readWithin b k).condition, idleCount := (readWithin b k).idleCount
      dominantRun := if b then 0 else min 65 (k.dominantRun + 1)
      assembler := (readWithin b k).assembler, heard := (readWithin b k).heard, check := (readWithin b k).check
      spacerFault := (readWithin b k).spacerFault, objecting := (readWithin b k).objecting } := fun k => by
    simp only [readWithin]
    split
    · cases b <;> rfl
    · split <;> cases b <;> rfl
  have h2 : ∀ k : Line, readBetween b k = { k with
      condition := (readBetween b k).condition, idleCount := (readBetween b k).idleCount
      dominantRun := if b then 0 else min 65 (k.dominantRun + 1)
      assembler := (readBetween b k).assembler, heard := (readBetween b k).heard, check := (readBetween b k).check
      spacerFault := (readBetween b k).spacerFault, objecting := (readBetween b k).objecting } := fun k => by
    simp only [readBetween, settleCondition]
    split
    · cases b <;> rfl
    · split
      · cases b <;> rfl
      · split <;> cases b <;> rfl
  unfold readBit
  split
  · exact h1 l
  · exact h2 _

theorem slotPassed_readBit (b : Bool) (l : Line) : slotPassed (readBit b l) =
    { slotPassed l with dominantRun := if b then 0 else min 65 (l.dominantRun + 1) } := by
  rw [readBit_rest]; rfl

/-- A departure leaves the line as `FrameLeaves` says, and the first frame of its test leaves the list (R147). -/
theorem FrameLeaves.departs {how : Departure} {o : OnLine} {s t : State} (h : FrameLeaves how o s t) :
    leavesLine how o s.line = true ∧ ∀ test, departFrame how test s = withoutFrame test t := by
  obtain ⟨ho, h⟩ := h
  have slot : ∀ level, (s.line.heard.length + 1 = o.bits.length ∧ s.line.heard.getLast? = some level) ∨
        s.line.heard.length + 2 = o.bits.length → slotReads level o s.line = true := fun level h => by
    have he : ownSlot o = o.bits.length - 1 := rfl
    unfold slotReads
    rcases h with h | h
    · rw [if_pos (by omega), h.2]; simp
    · rw [if_neg (by omega)]; simp only [decide_eq_true_eq]; omega
  have at0 : ∀ level, s.line.heard.length + 1 = o.bits.length → slotLine level o s.line = s.line := fun level h => by
    have he : ownSlot o = o.bits.length - 1 := rfl
    exact if_pos (by omega)
  have at1 : ∀ level, s.line.heard.length + 2 = o.bits.length → slotLine level o s.line = readBit level s.line := fun level h => by
    have he : ownSlot o = o.bits.length - 1 := rfl
    exact if_neg (by omega)
  cases how with
  | discarded => cases h
  | sent =>
    rcases h with ⟨h1, h2, rfl⟩ | ⟨h1, rfl⟩
    · refine ⟨slot _ (.inl ⟨h1, h2⟩), fun test => ?_⟩
      simp only [departFrame, ho, lineAfter, at0 _ h1]; rfl
    · refine ⟨slot _ (.inr h1), fun test => ?_⟩
      simp only [departFrame, ho, lineAfter, at1 _ h1, slotPassed_readBit]; rfl
  | voided =>
    obtain ⟨u, rfl, ⟨h1, h2, rfl⟩ | ⟨h1, rfl⟩⟩ := h
    · refine ⟨slot _ (.inl ⟨h1, h2⟩), fun test => ?_⟩
      simp only [departFrame, ho, lineAfter, at0 _ h1]; rfl
    · refine ⟨slot _ (.inr h1), fun test => ?_⟩
      simp only [departFrame, ho, lineAfter, at1 _ h1, slotPassed_readBit]; rfl
  | abandoned =>
    obtain ⟨read, n, h1, h2, h3, h4, rfl⟩ := h
    have hc : (readConflict o s.line = true) ↔ (s.line.heard.getLast? = some false ∧ o.bits[s.line.heard.length - 1]? = some true) := by
      simp only [readConflict, Bool.and_eq_true, beq_iff_eq, List.getD_eq_getElem?_getD]
      cases o.bits[s.line.heard.length - 1]? <;> simp
    have hread : read = conflictLine o s.line ∧ n = conflictPosition o s.line := by
      simp only [conflictLine, conflictPosition, hc]
      by_cases hk : s.line.heard.getLast? = some false ∧ o.bits[s.line.heard.length - 1]? = some true
      · rw [if_pos hk] at h1 ⊢; rw [if_pos hk]; exact h1
      · rw [if_neg hk] at h1 ⊢; rw [if_neg hk]; exact h1
    obtain ⟨rfl, rfl⟩ := hread
    refine ⟨?_, fun test => ?_⟩
    · simp only [leavesLine, faultsTransmit, conflictIn, Bool.and_eq_true, decide_eq_true_eq,
        List.getD_eq_getElem?_getD, h4]
      exact ⟨⟨rfl, h2⟩, Nat.le_trans h3 (by simp only [checkEnd, bodyEnd]; omega)⟩
    · simp only [departFrame, ho, lineAfter]
      have : (conflictLine o s.line).list = s.line.list := by
        unfold conflictLine; split
        · rfl
        · rw [readBit_rest]
      simp only [withoutFrame, this]; rfl

/-- The departure of an own frame that leaves can arise (R147). -/
theorem FrameLeaves.canDepart {how : Departure} {o : OnLine} {s t : State} (h : FrameLeaves how o s t) (b : Bool) (test : Frame → Bool)
    (hf : test o.frame = true) : Machine.canDepart how b test s = true := by
  have h1 := h.departs.1
  have ho := h.1
  cases how with
  | discarded => cases h1
  | sent => simp [Machine.canDepart, ho, hf, h1]
  | voided => simp [Machine.canDepart, ho, hf, h1]
  | abandoned => simp [Machine.canDepart, ho, hf, h1]

/-- An own frame leaves the line where the model's departure takes it. -/
theorem exists_frameLeaves {how : Departure} {o : OnLine} {s : State} (ho : s.line.onLine = some o)
    (h : leavesLine how o s.line = true) : ∃ t, FrameLeaves how o s t := by
  have slot : ∀ level, slotReads level o s.line = true →
      (s.line.heard.length + 1 = o.bits.length ∧ s.line.heard.getLast? = some level) ∨
        s.line.heard.length + 2 = o.bits.length := fun level h => by
    have he : ownSlot o = o.bits.length - 1 := rfl
    unfold slotReads at h
    by_cases hc : s.line.heard.length = ownSlot o
    · rw [if_pos hc] at h
      cases hl : s.line.heard with
      | nil => rw [hl] at h; cases h
      | cons b r =>
        rw [hl] at hc h
        exact .inl ⟨by simp only [List.length_cons] at *; omega, by simpa using h⟩
    · rw [if_neg hc] at h
      exact .inr (by simp only [decide_eq_true_eq] at h; omega)
  have sent : ∀ k, o.bits.getD k false = true → o.bits[k]? = some true := fun k h => by
    rw [List.getD_eq_getElem?_getD] at h
    cases hk : o.bits[k]? with
    | none => rw [hk] at h; cases h
    | some b => rw [hk] at h; exact congrArg some h
  cases how with
  | discarded => cases h
  | sent => exact (slot true h).elim (fun k => ⟨_, ho, .inl ⟨k.1, k.2, rfl⟩⟩) (fun k => ⟨_, ho, .inr ⟨k, rfl⟩⟩)
  | voided => exact (slot false h).elim (fun k => ⟨_, ho, _, rfl, .inl ⟨k.1, k.2, rfl⟩⟩) (fun k => ⟨_, ho, _, rfl, .inr ⟨k, rfl⟩⟩)
  | abandoned =>
    simp only [leavesLine, faultsTransmit, conflictIn, Bool.and_eq_true, decide_eq_true_eq] at h
    refine ⟨_, ho, conflictLine o s.line, conflictPosition o s.line, ?_, h.1.2, Nat.le_trans h.2 (by simp only [checkEnd, bodyEnd]; omega), sent _ h.1.1, rfl⟩
    simp only [conflictLine, conflictPosition, readConflict]
    split
    · next hc => simp [List.getD_eq_getElem?_getD, hc.1, hc.2]
    · next hc =>
      have : ¬((s.line.heard.getLast? == some false && o.bits.getD (s.line.heard.length - 1) false) = true) := fun hx => by
        simp only [Bool.and_eq_true, beq_iff_eq] at hx
        exact hc ⟨hx.1, sent _ hx.2⟩
      exact ⟨if_neg this, if_neg this⟩

end Sys2Proof.Machine
end

