-- ==== Sys2Proof/Laws/React.lean ====
section
/-! SUPPORT. The moves that the shared operations on entries, holds, channels and claims are made of (`Closed`), and, once for each
operation, that a property closed under these moves is kept by it. An invariant of the block is checked on the moves and on each
command's own effect. -/

namespace Sys2Proof.Machine

/-- A change of a port's counts, health, downshift fields or record store alone. -/
structure MinorChange (a b : Port) : Prop where
  front : b.front = a.front
  watch : b.watch = a.watch
  state : b.train.state = a.train.state
  holds : b.train.holds = a.train.holds
  grade : b.train.grade = a.train.grade
  role : b.train.role = a.train.role
  lastDrop : b.train.lastDrop = a.train.lastDrop

/-- Measurement m may begin on channel ch: it conflicts with none of the other channel (R75). -/
def Apart (ch : ChannelId) (m : Measurement) (s : State) : Prop :=
  ∀ n, (s.chan (otherChannel ch)).meas = some n → conflicts s.station.geometry m.target n.target = false

theorem Apart.modChan {ch : ChannelId} {m : Measurement} {s : State} (h : Apart ch m s) (f : Channel → Channel) :
    Apart ch m (s.modChan ch f) := fun n hn => by
  rw [State.modChan_chan_ne _ _ _ _ (otherChannel_ne ch)] at hn
  exact h n hn

/-- The property is kept by each move of the shared operations. -/
structure Closed (J : State → Prop) : Prop where
  quiet : ∀ (s : State) (q : List Entry) (a : Nat) (sw : Sweep) (b : Budget) (n : Byte) (sq : Count16) (d : Nat), J s →
    J { s with queue := q, arrival := a, sweep := sw, budget := b, claimCounter := n, sequence := sq, draws := d }
  raised : ∀ (e : Event) (s : State), J s → J (raise e s)
  minor : ∀ (p : PortId) (f : Port → Port) (s : State), (∀ pt, MinorChange pt (f pt)) → J s → J (s.modPort p f)
  unheld : ∀ (p : PortId) (f : HoldReasons → HoldReasons) (s : State), f HoldReasons.empty = HoldReasons.empty →
    (∀ h, (f h).settle = h.settle) → J s → J (unhold p f s)
  held : ∀ (p : PortId) (s : State), s.station.phase = .run → (s.port p).train.state ≠ .up → J s →
    J (hold p addChannelHold s)
  dropHeld : ∀ (p : PortId) (s : State), s.station.phase = .run → (s.port p).train.state = .up → J s →
    J (hold p addChannelHold (dropLink p .heldForMeasurement s))
  shadows : ∀ s : State, J s → J (updateShadows s)
  channel : ∀ (ch : ChannelId) (f : Channel → Channel) (s : State),
    (∀ c, ((f c).meas = c.meas ∨ (f c).meas = none) ∧ ((f c).launched = c.launched ∨ (f c).launched = 0)) → J s →
    J (s.modChan ch f)
  begun : ∀ (ch : ChannelId) (ph : Phase) (m : Measurement) (s : State), Apart ch m s → J s → J (beginMeasurement ch ph m s)
  placed : ∀ (f : Frame) (s : State), (f.kind = .claim ∨ f.kind = .release) → f.payload.length ≤ 15 → J s → J (placeFrame f s)
  taken : ∀ (ch : ChannelId) (s : State), J s → J (takeFrameOut .claim ch s)

namespace Closed

variable {J : State → Prop} (K : Closed J)
include K

/-! ### The queue, the sweep and final outcomes -/

theorem queue (s : State) (q : List Entry) (h : J s) : J { s with queue := q } := K.quiet s q _ _ _ _ _ _ h
theorem sweep (s : State) (sw : Sweep) (h : J s) : J { s with sweep := sw } := K.quiet s _ _ sw _ _ _ _ h

theorem mergeInto (p : PortId) (r : MeasureRequest) (e : Entry) (s : State) (h : J s) : J (Machine.mergeInto p r e s) :=
  K.queue s _ h
theorem addEntry (p : PortId) (r : MeasureRequest) (s : State) (h : J s) : J (Machine.addEntry p r s) :=
  K.quiet s _ _ _ _ _ _ _ h
theorem removeEntry (p : PortId) (s : State) (h : J s) : J (Machine.removeEntry p s) := K.queue s _ h
theorem setHolder (p : PortId) (o : Option ChannelId) (s : State) (h : J s) : J (Machine.setHolder p o s) := K.queue s _ h
theorem endSweep (s : State) (h : J s) : J (Machine.endSweep s) := K.quiet s _ _ _ _ _ _ _ h
theorem retireSweep (s : State) (h : J s) : J (Machine.retireSweep s) := K.queue s _ h

theorem sweepOver (f : SweepFields) (ps : List PortId) (s : State) (h : J s) : J (Machine.sweepOver f ps s) := by
  induction ps generalizing s with
  | nil => simp only [Machine.sweepOver, endRound]; split <;> exact K.sweep s _ h
  | cons p ps ih =>
    simp only [Machine.sweepOver]; split
    · exact ih _ (K.sweep s _ h)
    · split
      · exact K.mergeInto _ _ _ _ (K.sweep s _ h)
      · split
        · exact K.addEntry _ _ _ (K.sweep s _ h)
        · exact K.sweep s _ h

theorem sweepAdvance (s : State) (h : J s) : J (Machine.sweepAdvance s) := by
  simp only [Machine.sweepAdvance]; split
  · exact h
  · exact K.sweepOver _ _ s h

theorem sweepAfter (b : Bool) (s : State) (h : J s) : J (Machine.sweepAfter b s) := by
  simp only [Machine.sweepAfter]; split
  · exact K.sweepAdvance s h
  · exact h

theorem setDownshift (p : PortId) (s : State) (h : J s) : J (Machine.setDownshift p s) :=
  K.raised _ _ (K.minor p _ s (fun _ => ⟨rfl, rfl, rfl, rfl, rfl, rfl, rfl⟩) h)

theorem clearFourPair (p : PortId) (s : State) (h : J s) : J (Machine.clearFourPair p s) :=
  K.minor p _ s (fun _ => ⟨rfl, rfl, rfl, rfl, rfl, rfl, rfl⟩) h

theorem secondDownshiftTest (p : PortId) (s : State) (h : J s) : J (Machine.secondDownshiftTest p s) := by
  simp only [Machine.secondDownshiftTest]; split
  · have h1 := K.minor p (fun pt => { pt with train.downshiftCheck := false }) s
      (fun _ => ⟨rfl, rfl, rfl, rfl, rfl, rfl, rfl⟩) h
    split
    · exact K.setDownshift p _ h1
    · exact K.clearFourPair p _ h1
  · exact h

theorem takeOutcome (e : Entry) (o : FinalOutcome) (s : State) (h : J s) : J (Machine.takeOutcome e o s) := by
  refine K.raised _ _ (K.minor _ _ s (fun pt => ?_) h)
  simp only [storeOutcome]; split <;> exact ⟨rfl, rfl, rfl, rfl, rfl, rfl, rfl⟩

theorem noteQueueFull (p : PortId) (s : State) (h : J s) : J (Machine.noteQueueFull p s) :=
  K.raised _ _ (K.minor p _ s (fun _ => ⟨rfl, rfl, rfl, rfl, rfl, rfl, rfl⟩) h)

theorem finalOutcome (p : PortId) (o : FinalOutcome) (s : State) (h : J s) : J (Machine.finalOutcome p o s) := by
  simp only [Machine.finalOutcome]; split
  · exact h
  · refine K.sweepAfter _ _ (K.unheld p _ _ ?_ ?_ (K.secondDownshiftTest p _ (K.takeOutcome _ _ _ (K.removeEntry p s h))))
    · split <;> rfl
    · intro x; split <;> rfl

theorem dropWaiting (p : PortId) (s : State) (h : J s) : J (Machine.dropWaiting p s) := by
  simp only [Machine.dropWaiting]; split
  · exact h
  · exact K.sweepAfter _ _ (K.removeEntry p s h)

theorem autoRequest (p : PortId) (r : MeasureRequest) (s t : State) (ht : Machine.autoRequest p r s = some t) (h : J s) : J t := by
  simp only [Machine.autoRequest] at ht
  split at ht
  · cases ht; exact K.mergeInto _ _ _ s h
  · split at ht
    · cases ht
    · split at ht
      · cases ht; exact K.addEntry _ _ s h
      · split at ht
        · cases ht; exact K.sweepAfter _ _ (K.addEntry _ _ _ (K.removeEntry _ s h))
        · cases ht

/-! ### Channels and claims -/

theorem enterClaiming (ch : ChannelId) (s : State) (h : J s) : J (Machine.enterClaiming ch s) := by
  simp only [Machine.enterClaiming]; split
  · refine K.placed _ _ (Or.inl rfl) (by simp [claimPayload]) (K.quiet _ _ _ _ _ _ _ _ (K.channel ch _ s ?_ h))
    intro c; exact ⟨Or.inl rfl, Or.inl rfl⟩
  · exact h

theorem releaseClaim (ch : ChannelId) (s : State) (h : J s) : J (Machine.releaseClaim ch s) := by
  simp only [Machine.releaseClaim]; split
  · exact K.channel ch _ s (fun _ => ⟨Or.inl rfl, Or.inl rfl⟩) h
  · split
    · exact K.channel ch _ s (fun _ => ⟨Or.inl rfl, Or.inl rfl⟩) h
    · exact K.placed _ _ (Or.inr rfl) (by simp [releasePayload]) (K.channel ch _ s (fun _ => ⟨Or.inl rfl, Or.inl rfl⟩) h)

theorem giveBack (ch : ChannelId) (s : State) (h : J s) : J (Machine.giveBack ch s) := by
  simp only [Machine.giveBack]; split
  · exact h
  · exact K.unheld _ _ _ rfl (fun _ => rfl) (K.setHolder _ _ s h)

theorem ended (ch : ChannelId) (o : FinalOutcome) (s : State) (h : J s) : J (s.modChan ch (burstMeasurement o)) := by
  refine K.channel ch _ s (fun _ => ?_) h
  cases o <;> exact ⟨Or.inr rfl, Or.inl rfl⟩

theorem stopped (ch : ChannelId) (o : StopOutcome) (s : State) (h : J s) : J (s.modChan ch (stopMeasurement o)) := by
  refine K.channel ch _ s (fun _ => ?_) h
  cases o <;> first | exact ⟨Or.inr rfl, Or.inl rfl⟩ | exact ⟨Or.inr rfl, Or.inr rfl⟩

theorem endWith (ch : ChannelId) (o : StopOutcome) (s : State) (h : J s) : J (Machine.endWith ch o s) := by
  simp only [Machine.endWith]
  refine K.stopped ch o _ ?_
  split
  · exact h
  · cases o
    · exact K.finalOutcome _ _ s h
    · exact K.finalOutcome _ _ s h
    · exact K.giveBack ch s h
    · exact K.giveBack ch s h

theorem dropUnsentClaim (ch : ChannelId) (s : State) (h : J s) : J (Machine.dropUnsentClaim ch s) :=
  K.channel ch _ _ (fun _ => ⟨Or.inl rfl, Or.inl rfl⟩) (K.taken ch s h)

theorem stopNow (ch : ChannelId) (o : StopOutcome) (s : State) (h : J s) : J (Machine.stopNow ch o s) := by
  simp only [Machine.stopNow]; split
  · exact K.releaseClaim ch _ (K.endWith ch o s h)
  · exact K.dropUnsentClaim ch _ (K.endWith ch o s h)

theorem stopChannel (ch : ChannelId) (o : StopOutcome) (s : State) (h : J s) : J (Machine.stopChannel ch o s) := by
  have hp : ∀ x : StopOutcome, J (s.modChan ch (fun c => { c with stop := some x })) := fun x =>
    K.channel ch _ s (fun _ => ⟨Or.inl rfl, Or.inl rfl⟩) h
  simp only [Machine.stopChannel]; split
  · exact h
  · exact h
  · exact K.stopNow ch _ s h
  · split
    · exact hp _
    · exact K.stopNow ch _ s h
  · exact K.stopNow ch _ s h
  · split
    · exact hp _
    · exact K.stopNow ch _ s h

theorem enterBursting (ch : ChannelId) (s : State) (h : J s) : J (Machine.enterBursting ch s) :=
  K.quiet _ _ _ _ _ _ _ _ (K.channel ch _ s (fun _ => ⟨Or.inl rfl, Or.inr rfl⟩) h)

theorem returnResult (ch : ChannelId) (s : State) (h : J s) : J (Machine.returnResult ch s) := by
  simp only [Machine.returnResult]; split
  · exact h
  · exact K.channel ch _ s (fun _ => ⟨Or.inl rfl, Or.inl rfl⟩) h

theorem finishBurst (ch : ChannelId) (o : FinalOutcome) (s : State) (h : J s) : J (Machine.finishBurst ch o s) := by
  simp only [Machine.finishBurst]; split
  · exact h
  · exact K.releaseClaim ch _ (K.ended ch o _ (K.finalOutcome _ o s h))

/-! ### The arbiter -/

theorem pickup (ch : ChannelId) (e : Entry) (s : State) (hr : s.station.phase = .run) (ha : Apart ch (measurementOf s e) s)
    (h : J s) : J (Machine.pickup ch e s) := by
  have h1 : J (startPickup ch e s) := K.channel ch _ _ (fun _ => ⟨Or.inr rfl, Or.inr rfl⟩) (K.setHolder e.target (some ch) s h)
  have ha' : Apart ch (measurementOf s e) (startPickup ch e s) :=
    Apart.modChan (s := Machine.setHolder e.target (some ch) s) ha _
  have hc : (s.port e.target).train.state ≠ .up → J (Machine.enterClaiming ch (beginMeasurement ch .claiming (measurementOf s e)
      (hold e.target addChannelHold (startPickup ch e s)))) := fun hs =>
    K.enterClaiming ch _ (K.begun ch _ _ _ ha' (K.held e.target _ hr hs h1))
  simp only [Machine.pickup]
  split
  · exact K.finalOutcome _ _ _ h1
  · next hs =>
    split
    · refine K.channel ch _ _ (fun _ => ⟨Or.inl rfl, Or.inl rfl⟩) (K.begun ch _ _ _ ?_ (K.dropHeld e.target _ hr hs h1))
      intro n hn
      simp only [hold, dropLink, State.modPort_chan, raise_chan, State.modPort_station, raise_station] at hn ⊢
      exact ha' n hn
    · exact K.finalOutcome _ _ _ h1
  all_goals next hs => exact hc (by rw [hs]; simp)

theorem offerTo (ch : ChannelId) (s t : State) (ht : Machine.offerTo ch s = some t) (h : J s) : J t := by
  simp only [Machine.offerTo] at ht
  split at ht
  · next hg =>
    simp only [Option.map_eq_some_iff] at ht
    obtain ⟨e, he, rfl⟩ := ht
    have hel := List.find?_some he
    refine K.pickup ch e s ?_ ?_ h
    · simp only [offersAllowed, Bool.and_eq_true, beq_iff_eq] at hg
      exact hg.1.1.1.1.1
    · intro n hn
      simp only [eligible, hn, Option.any_some, Bool.and_eq_true, Bool.not_eq_true'] at hel
      exact hel.1.1.1.2
  · cases ht

theorem offers (n : Nat) (s : State) (h : J s) : J (Machine.offers n s) := by
  induction n generalizing s with
  | zero => exact h
  | succ n ih =>
    simp only [Machine.offers]; split
    · next t ht => exact ih t (K.offerTo 1 s t ht h)
    · split
      · next t ht => exact ih t (K.offerTo 0 s t ht h)
      · exact h

theorem moveReady (ready : State → ChannelId → Bool) (move : ChannelId → State → State)
    (hm : ∀ ch u, J u → J (move ch u)) (s : State) (h : J s) : J (Machine.moveReady ready move s) := by
  have h0 : J { s with draws := s.draws + 1 } := K.quiet s _ _ _ _ _ _ _ h
  simp only [Machine.moveReady]; split
  · split <;> exact hm _ _ (hm _ _ h0)
  · split
    · exact hm _ _ h
    · split
      · exact hm _ _ h
      · exact h

/-- What follows a change of claims, entries or channels keeps the property. -/
theorem react (s : State) (h : J s) : J (Machine.react s) :=
  K.offers _ _ (K.shadows _ (K.moveReady _ _ K.enterClaiming _ (K.moveReady _ _ K.enterBursting s h)))

theorem troubleAt (ch : ChannelId) (s : State) (h : J s) : J (Machine.troubleAt ch s) := by
  simp only [Machine.troubleAt]; split <;> first | exact h | exact K.stopChannel ch _ s h

theorem trouble (s : State) (h : J s) : J (Machine.trouble s) := K.troubleAt 1 _ (K.troubleAt 0 s h)

/-! ### Failed attempts, drops and the console's cancels -/

theorem endMatter (p : PortId) (o : FinalOutcome) (x : StopOutcome) (s : State) (h : J s) : J (Machine.endMatter p o x s) := by
  simp only [Machine.endMatter]; split
  · exact K.finalOutcome p o s h
  · exact K.stopChannel _ x s h
  · exact h

theorem resetMatter (p : PortId) (s : State) (h : J s) : J (Machine.resetMatter p s) := by
  simp only [Machine.resetMatter]; split
  · exact K.dropWaiting p s h
  · exact K.stopChannel _ _ s h
  · exact h

end Closed

end Sys2Proof.Machine
end

