-- ==== Sys2Proof/Laws/Invariants.lean ====
section
/-! SUPPORT. The invariants of Safety.lean under the moves of the shared operations: the transmit list, the hold reasons, the two
channels' targets; and what the moves never change. -/

namespace Sys2Proof.Machine

/-! ### The transmit list (R145) -/

theorem mem_insertFrame {f x : Frame} {l : List Frame} : x ∈ insertFrame f l ↔ x = f ∨ x ∈ l := by
  induction l with
  | nil => simp [insertFrame]
  | cons g gs ih =>
    simp only [insertFrame]; split
    · simp [ih]; tauto
    · simp

theorem insertFrame_sorted {f : Frame} {l : List Frame}
    (h : l.Pairwise (fun a b => frameKindCode a.kind ≤ frameKindCode b.kind)) :
    (insertFrame f l).Pairwise (fun a b => frameKindCode a.kind ≤ frameKindCode b.kind) := by
  induction l with
  | nil => simp [insertFrame]
  | cons g gs ih =>
    obtain ⟨hg, hgs⟩ := List.pairwise_cons.mp h
    simp only [insertFrame]; split
    · next hle =>
      refine List.pairwise_cons.mpr ⟨fun x hx => ?_, ih hgs⟩
      rcases mem_insertFrame.mp hx with rfl | hx
      · exact hle
      · exact hg x hx
    · next hle =>
      refine List.pairwise_cons.mpr ⟨fun x hx => ?_, h⟩
      rcases List.mem_cons.mp hx with rfl | hx
      · omega
      · have := hg x hx; omega

theorem countKind_insertFrame (k : FrameKind) (f : Frame) (l : List Frame) :
    countKind k (insertFrame f l) = countKind k l + if f.kind = k then 1 else 0 := by
  induction l with
  | nil => by_cases h : f.kind = k <;> simp [insertFrame, countKind, h]
  | cons g gs ih =>
    simp only [insertFrame]; split
    · simp only [countKind, List.filter_cons] at ih ⊢
      by_cases hg : g.kind = k <;> simp [hg, ih]; omega
    · by_cases hf : f.kind = k <;> simp [countKind, List.filter_cons, hf]

theorem takeOut_sublist (test : Frame → Bool) (l : List Frame) : (takeOut test l).Sublist l := by
  induction l with
  | nil => exact List.Sublist.refl _
  | cons g gs ih =>
    simp only [takeOut]; split
    · exact List.sublist_cons_self g gs
    · exact ih.cons_cons g

theorem ListOk.sublist {l : Line} (h : ListOk l) {fs : List Frame} (hs : fs.Sublist l.list) : ListOk { l with list := fs } := by
  obtain ⟨h1, h2, h3, h4, h5⟩ := h
  have hc : ∀ k, countKind k fs ≤ countKind k l.list := fun k => (hs.filter _).length_le
  exact ⟨h1.sublist hs, (hc _).trans h2, (hc _).trans h3, fun f hf => h4 f (hs.subset hf), h5⟩

/-- A frame of another kind than REPORT and ALERT may join the list. -/
theorem ListOk.insert {l : Line} (h : ListOk l) {f : Frame} (h1 : f.kind ≠ .report) (h2 : f.kind ≠ .alert)
    (hp : f.payload.length ≤ 15) : ListOk { l with list := insertFrame f l.list } := by
  obtain ⟨g1, g2, g3, g4, g5⟩ := h
  refine ⟨insertFrame_sorted g1, ?_, ?_, ?_, g5⟩
  · rw [countKind_insertFrame, if_neg h1]; exact g2
  · rw [countKind_insertFrame, if_neg h2]; exact g3
  · intro x hx
    rcases mem_insertFrame.mp hx with rfl | hx
    · exact hp
    · exact g4 x hx

/-- The list is sound when list and frame on the line are. -/
theorem ListOk.congr {l m : Line} (h : ListOk l) (h1 : m.list = l.list) (h2 : m.onLine = l.onLine ∨ m.onLine = none) :
    ListOk m := by
  obtain ⟨g1, g2, g3, g4, g5⟩ := h
  refine ⟨by rw [h1]; exact g1, by rw [h1]; exact g2, by rw [h1]; exact g3, by rw [h1]; exact g4, fun o ho => ?_⟩
  rcases h2 with h2 | h2 <;> rw [h2] at ho
  · exact g5 o ho
  · cases ho

theorem ListOk.raise {s : State} (h : ListOk s.line) (e : Event) : ListOk (Machine.raise e s).line := by
  simp only [Machine.raise]; split
  · next hc =>
    obtain ⟨g1, g2, g3, g4, g5⟩ := h
    refine ⟨insertFrame_sorted g1, ?_, ?_, ?_, g5⟩
    · simp only [placeFrame]; rw [countKind_insertFrame]; simp [alertFrame]; exact g2
    · simp only [placeFrame]; rw [countKind_insertFrame]; simp [alertFrame, hc.2]
    · intro x hx
      rcases mem_insertFrame.mp hx with rfl | hx
      · simp [alertFrame]
      · exact g4 x hx
  · exact h

theorem listOk_closed : Closed (fun s => ListOk s.line) where
  quiet _ _ _ _ _ _ _ _ h := h
  raised e _ h := h.raise e
  minor _ _ _ _ h := h
  unheld _ _ _ _ _ h := h
  held _ _ _ _ h := h
  dropHeld p s _ _ h := ListOk.raise (s := s.modPort p (dropPort .heldForMeasurement)) h _
  shadows _ h := h
  channel _ _ _ _ h := h
  begun _ _ _ _ _ h := h
  placed f _ hk hp h := h.insert (by rcases hk with hk | hk <;> simp [hk]) (by rcases hk with hk | hk <;> simp [hk]) hp
  taken _ _ h := h.sublist (takeOut_sublist _ _)

/-! ### Hold reasons (R20, R57, R5) -/

theorem HoldReasons.ne_empty_iff (h : HoldReasons) : h ≠ HoldReasons.empty ↔ (h.channel || h.settle || h.await) = true := by
  obtain ⟨a, b, c⟩ := h
  cases a <;> cases b <;> cases c <;> simp [HoldReasons.empty]

/-- A port that is not HELD has no hold reason and no drop settle. -/
theorem PortHoldOk.notHeld {ph : StationPhase} {a : Port} (h : PortHoldOk ph a) (hs : a.train.state ≠ .held) :
    a.train.holds = HoldReasons.empty ∧ a.watch.dropSettle.running = false := by
  have h1 : a.train.holds = HoldReasons.empty := by
    by_contra hc; exact hs (h.1.mpr hc)
  exact ⟨h1, by rw [h.2.1, h1]; rfl⟩

/-- A port in a state other than HELD, with no hold reason and no drop settle, is sound in RUN. -/
theorem PortHoldOk.of_free {ph : StationPhase} {b : Port} (h1 : b.train.state ≠ .held) (h2 : b.train.holds = HoldReasons.empty)
    (h3 : b.watch.dropSettle.running = false) (h4 : ph ≠ .run → b.train.state = .offline) : PortHoldOk ph b :=
  ⟨⟨fun h => absurd h h1, fun h => absurd h2 h⟩, by rw [h2, h3]; rfl, h4⟩

/-- State, hold reasons and drop settle alone decide. -/
theorem PortHoldOk.congr {ph : StationPhase} {a b : Port} (h : PortHoldOk ph a) (h1 : b.train.state = a.train.state)
    (h2 : b.train.holds = a.train.holds) (h3 : b.watch.dropSettle.running = a.watch.dropSettle.running) : PortHoldOk ph b := by
  simp only [PortHoldOk, h1, h2, h3]; exact h

/-- A port that is not HELD may enter any state but HELD, in RUN. -/
theorem PortHoldOk.leave {a b : Port} (h : PortHoldOk .run a) (hs : a.train.state ≠ .held) (h1 : b.train.state ≠ .held)
    (h2 : b.train.holds = HoldReasons.empty) (h3 : b.watch.dropSettle = a.watch.dropSettle) : PortHoldOk .run b :=
  PortHoldOk.of_free h1 h2 (by rw [h3]; exact (h.notHeld hs).2) (by simp)

theorem portReEntry_facts (code : Nat) (a : Port) : (portReEntry code a).train.state ≠ .held ∧
    (portReEntry code a).train.holds = HoldReasons.empty ∧ (portReEntry code a).watch = a.watch := by
  simp only [portReEntry]; split <;> exact ⟨by simp [enterSettling, enterDormant, settleInto], rfl, rfl⟩

theorem HoldsOk.modPort {s : State} (h : HoldsOk s) (p : PortId) (f : Port → Port)
    (hf : PortHoldOk s.station.phase (s.port p) → PortHoldOk s.station.phase (f (s.port p))) : HoldsOk (s.modPort p f) := by
  intro q
  by_cases hq : p = q
  · subst hq; rw [State.modPort_port_self]; exact hf (h p)
  · rw [State.modPort_port_ne s p q f hq]; exact h q

theorem HoldsOk.congr {s t : State} (h : HoldsOk s) (h1 : ∀ p, t.port p = s.port p) (h2 : t.station.phase = s.station.phase) :
    HoldsOk t := by
  intro p; rw [h1, h2]; exact h p

theorem PortHoldOk.offline_run {ph : StationPhase} {a : Port} (h : PortHoldOk ph a) (hs : a.train.state ≠ .offline) : ph = .run := by
  by_contra hc; exact hs (h.2.2 hc)

theorem PortHoldOk.unhold {ph : StationPhase} {a : Port} (h : PortHoldOk ph a) (code : Nat) (f : HoldReasons → HoldReasons)
    (h0 : f HoldReasons.empty = HoldReasons.empty) (h1 : ∀ x, (f x).settle = x.settle) : PortHoldOk ph (unholdPort code f a) := by
  by_cases hs : a.train.state = .held
  · have hr := h.offline_run (by rw [hs]; simp)
    subst hr
    simp only [unholdPort]
    by_cases he : f a.train.holds = HoldReasons.empty
    · rw [if_pos ⟨hs, he⟩]
      obtain ⟨r1, r2, r3⟩ := portReEntry_facts code { a with train.holds := f a.train.holds }
      refine PortHoldOk.of_free r1 r2 ?_ (by simp)
      rw [r3]; change a.watch.dropSettle.running = false
      rw [h.2.1, ← h1, he]; rfl
    · rw [if_neg (fun x => he x.2)]
      exact ⟨⟨fun _ => he, fun _ => hs⟩, by change a.watch.dropSettle.running = (f a.train.holds).settle; rw [h1, h.2.1], by simp⟩
  · obtain ⟨n1, n2⟩ := h.notHeld hs
    simp only [unholdPort]; rw [if_neg (fun x => hs x.1)]
    refine h.congr rfl ?_ rfl
    change f a.train.holds = a.train.holds
    rw [n1, h0]

theorem PortHoldOk.hold {a : Port} (h : PortHoldOk .run a) : PortHoldOk .run (holdPort addChannelHold a) := by
  by_cases hs : a.train.state = .held
  · simp only [holdPort, hs, if_true]
    refine ⟨⟨fun _ => ?_, fun _ => rfl⟩, h.2.1, by simp⟩
    rw [HoldReasons.ne_empty_iff]; rfl
  · obtain ⟨n1, n2⟩ := h.notHeld hs
    simp only [holdPort]; rw [if_neg hs]
    refine ⟨⟨fun _ => ?_, fun _ => rfl⟩, n2, by simp⟩
    rw [HoldReasons.ne_empty_iff]; rfl

theorem shadowChange_facts (w : Nat) (b : Bool) (a : Port) : (shadowChange w b a).train.state = a.train.state ∧
    (shadowChange w b a).train.holds = a.train.holds ∧ (shadowChange w b a).watch.dropSettle = a.watch.dropSettle ∧
    (shadowChange w b a).train.grade = a.train.grade ∧ (shadowChange w b a).train.role = a.train.role ∧
    (shadowChange w b a).train.lastDrop = a.train.lastDrop := by
  simp only [shadowChange]; split
  · exact ⟨rfl, rfl, rfl, rfl, rfl, rfl⟩
  · split
    · simp only [shadowStart]; split <;> exact ⟨rfl, rfl, rfl, rfl, rfl, rfl⟩
    · simp only [shadowEnd]; split <;> exact ⟨rfl, rfl, rfl, rfl, rfl, rfl⟩

theorem holdsOk_closed : Closed HoldsOk where
  quiet _ _ _ _ _ _ _ _ h := h
  raised e s h := h.congr (fun p => raise_port e s p) (by rw [raise_station])
  minor p f s hf h := h.modPort p f (fun g => g.congr (hf _).state (hf _).holds (by rw [(hf _).watch]))
  unheld p f s h0 h1 h := h.modPort p _ (fun g => g.unhold _ f h0 h1)
  held p s hr _ h := h.modPort p _ (fun g => by rw [hr] at g ⊢; exact g.hold)
  dropHeld p s hr _ h := by
    have h1 : HoldsOk (dropLink p .heldForMeasurement s) :=
      HoldsOk.congr (h.modPort p (dropPort .heldForMeasurement) (fun g => g.congr rfl rfl rfl))
        (fun q => raise_port _ _ q) (by rw [dropLink, raise_station])
    have hr1 : (dropLink p .heldForMeasurement s).station.phase = .run := by rw [dropLink, raise_station]; exact hr
    exact h1.modPort p _ (fun g => by rw [hr1] at g ⊢; exact g.hold)
  shadows s h p := by
    obtain ⟨a, b, c, _⟩ := shadowChange_facts s.setup.window (shadowed s p) (s.port p)
    rw [updateShadows, State.mapPorts_port]
    exact (h p).congr a b (by rw [c])
  channel _ _ _ _ h := h
  begun _ _ _ _ _ h := h
  placed _ _ _ _ h := h
  taken _ _ h := h

/-! ### The channels' targets (R75, R154) -/

theorem conflicts_symm (geo : Geometry) (g h : GlobalPort) : conflicts geo g h = conflicts geo h g := by
  have key : ∀ g h : GlobalPort, conflicts geo g h = true → conflicts geo h g = true := by
    intro g h
    have hg := g.isLt; have hh := h.isLt
    cases geo <;>
      simp only [conflicts, inZone, neighbours, Bool.or_eq_true, decide_eq_true_eq, List.any_eq_true, List.mem_filter, beq_iff_eq,
        Fin.ext_iff]
    · split <;> split <;> simp <;> omega
    · split <;> split <;> split <;> split <;> simp <;> omega
  rw [Bool.eq_iff_iff]; exact ⟨key g h, key h g⟩

theorem channel_cases (ch : ChannelId) : ch = 0 ∨ ch = 1 := by revert ch; decide

/-- Channels that hold no other measurement than before stay apart. -/
theorem TargetsApart.mono {s t : State} (h : TargetsApart s) (hg : t.station.geometry = s.station.geometry)
    (hm : ∀ ch, (t.chan ch).meas = (s.chan ch).meas ∨ (t.chan ch).meas = none) : TargetsApart t := by
  intro m n h0 h1
  rw [hg]
  refine h m n ?_ ?_
  · rcases hm 0 with e | e <;> rw [e] at h0
    · exact h0
    · cases h0
  · rcases hm 1 with e | e <;> rw [e] at h1
    · exact h1
    · cases h1

theorem TargetsApart.modChan {s : State} (h : TargetsApart s) (ch : ChannelId) (f : Channel → Channel)
    (hf : (f (s.chan ch)).meas = (s.chan ch).meas ∨ (f (s.chan ch)).meas = none) : TargetsApart (s.modChan ch f) := by
  refine h.mono rfl (fun d => ?_)
  by_cases hd : ch = d
  · subst hd; rw [State.modChan_chan_self]; exact hf
  · rw [State.modChan_chan_ne _ _ _ _ hd]; exact Or.inl rfl

theorem targetsApart_closed : Closed TargetsApart where
  quiet _ _ _ _ _ _ _ _ h := h
  raised e s h := h.mono (by rw [raise_station]) (fun ch => Or.inl (by rw [raise_chan]))
  minor _ _ _ _ h := h
  unheld _ _ _ _ _ h := h
  held _ _ _ _ h := h
  dropHeld p s _ _ h := h.mono (by simp [hold, dropLink]) (fun ch => Or.inl (by simp [hold, dropLink]))
  shadows _ h := h
  channel ch f s hf h := h.modChan ch f (hf _).1
  begun ch ph m s ha h := by
    intro m0 m1 h0 h1
    rcases channel_cases ch with rfl | rfl
    · rw [beginMeasurement, State.modChan_chan_self] at h0
      rw [beginMeasurement, State.modChan_chan_ne _ _ _ _ (by decide)] at h1
      cases h0
      exact ha m1 h1
    · rw [beginMeasurement, State.modChan_chan_ne _ _ _ _ (by decide)] at h0
      rw [beginMeasurement, State.modChan_chan_self] at h1
      cases h1
      rw [conflicts_symm]
      exact ha m0 h0
  placed _ _ _ _ h := h
  taken _ _ h := h

/-! ### What the moves leave alone -/

/-- Station, setup store, claim view and counters are those of a state. -/
theorem keepsRest_closed (a : State) : Closed (fun s => KeepsRest a s) where
  quiet _ _ _ _ _ _ _ _ h := ⟨h.station, h.setup, h.view, h.unknownReleases, h.counters, h.now, h.pending, h.wire⟩
  raised e s h := ⟨by rw [raise_station]; exact h.station, by rw [raise_setup]; exact h.setup, by rw [raise_view]; exact h.view,
    by rw [raise_unknownReleases]; exact h.unknownReleases, by rw [raise_counters]; exact h.counters,
    by rw [raise_now]; exact h.now, by rw [raise_pending]; exact h.pending,
    by rw [raise_wire]; exact h.wire⟩
  minor _ _ _ _ h := ⟨h.station, h.setup, h.view, h.unknownReleases, h.counters, h.now, h.pending, h.wire⟩
  unheld _ _ _ _ _ h := ⟨h.station, h.setup, h.view, h.unknownReleases, h.counters, h.now, h.pending, h.wire⟩
  held _ _ _ _ h := ⟨h.station, h.setup, h.view, h.unknownReleases, h.counters, h.now, h.pending, h.wire⟩
  dropHeld p s _ _ h := by
    refine ⟨?_, ?_, ?_, ?_, ?_, ?_, ?_, ?_⟩ <;> simp only [hold, dropLink, State.modPort_station, State.modPort_setup,
      State.modPort_view, State.modPort_unknownReleases, State.modPort_counters, State.modPort_now, State.modPort_pending,
      State.modPort_wire, raise_wire,
      raise_station, raise_setup, raise_view, raise_unknownReleases, raise_counters, raise_now, raise_pending]
    · exact h.station
    · exact h.setup
    · exact h.view
    · exact h.unknownReleases
    · exact h.counters
    · exact h.now
    · exact h.pending
    · exact h.wire
  shadows _ h := ⟨h.station, h.setup, h.view, h.unknownReleases, h.counters, h.now, h.pending, h.wire⟩
  channel _ _ _ _ h := ⟨h.station, h.setup, h.view, h.unknownReleases, h.counters, h.now, h.pending, h.wire⟩
  begun _ _ _ _ _ h := ⟨h.station, h.setup, h.view, h.unknownReleases, h.counters, h.now, h.pending, h.wire⟩
  placed _ _ _ _ h := ⟨h.station, h.setup, h.view, h.unknownReleases, h.counters, h.now, h.pending, h.wire⟩
  taken _ _ h := ⟨h.station, h.setup, h.view, h.unknownReleases, h.counters, h.now, h.pending, h.wire⟩

/-- No move launches a shot (R93). -/
theorem launched_closed (ch : ChannelId) (n : Nat) : Closed (fun s => (s.chan ch).launched ≤ n) where
  quiet _ _ _ _ _ _ _ _ h := h
  raised e s h := by rw [raise_chan]; exact h
  minor _ _ _ _ h := h
  unheld _ _ _ _ _ h := h
  held _ _ _ _ h := h
  dropHeld p s _ _ h := by simp only [hold, dropLink, State.modPort_chan, raise_chan]; exact h
  shadows _ h := h
  channel c f s hf h := by
    by_cases hc : c = ch
    · subst hc; rw [State.modChan_chan_self]; rcases (hf (s.chan c)).2 with e | e <;> rw [e]
      · exact h
      · exact Nat.zero_le _
    · rw [State.modChan_chan_ne _ _ _ _ hc]; exact h
  begun c ph m s _ h := by
    by_cases hc : c = ch
    · subst hc; rw [beginMeasurement, State.modChan_chan_self]; exact h
    · rw [beginMeasurement, State.modChan_chan_ne _ _ _ _ hc]; exact h
  placed _ _ _ _ h := h
  taken _ _ h := h

/-- Port p is UP, or its drop is on record: a cause, no grade, no role, and LINK_DOWN in the summary (R17). -/
def UpOrDropped (p : PortId) (s : State) : Prop :=
  (s.port p).train.state = .up ∨
    ((s.port p).train.lastDrop.isSome ∧ (s.port p).train.grade = none ∧ (s.port p).train.role = none ∧
      s.summary.linkDown.has p = true)

theorem Summary.add_linkDown (m : Summary) (e : Event) (p : PortId) (h : m.linkDown.has p = true) :
    (m.add e).linkDown.has p = true := by
  cases e <;> simp only [Summary.add]
  all_goals first | exact h | (rw [PortSet.has_insert, h, Bool.or_true])

/-- The state of UpOrDropped after a change that keeps what it speaks of. -/
theorem UpOrDropped.congr {p : PortId} {s t : State} (h : UpOrDropped p s) (h1 : (t.port p).train.state = (s.port p).train.state)
    (h2 : (t.port p).train.lastDrop = (s.port p).train.lastDrop) (h3 : (t.port p).train.grade = (s.port p).train.grade)
    (h4 : (t.port p).train.role = (s.port p).train.role) (h5 : t.summary.linkDown.has p = true ∨ t.summary = s.summary) :
    UpOrDropped p t := by
  rcases h with h | ⟨a, b, c, d⟩
  · exact Or.inl (h1.trans h)
  · refine Or.inr ⟨by rw [h2]; exact a, h3.trans b, h4.trans c, ?_⟩
    rcases h5 with h5 | h5
    · exact h5
    · rw [h5]; exact d

/-- A port whose drop is on record stays so in any state without a grade. -/
theorem UpOrDropped.settled {p : PortId} {s t : State} (h : UpOrDropped p s) (hu : (s.port p).train.state ≠ .up)
    (h2 : (t.port p).train.lastDrop = (s.port p).train.lastDrop) (h3 : (t.port p).train.grade = none)
    (h4 : (t.port p).train.role = none) (h5 : t.summary = s.summary) : UpOrDropped p t := by
  rcases h with h | ⟨a, b, c, d⟩
  · exact absurd h hu
  · exact Or.inr ⟨by rw [h2]; exact a, h3, h4, by rw [h5]; exact d⟩

/-- The drop of an UP port is on record, whatever state follows (R17). -/
theorem dropLink_dropped (p : PortId) (c : DropCause) (s : State) :
    ((dropLink p c s).port p).train.lastDrop.isSome ∧ ((dropLink p c s).port p).train.grade = none ∧
      ((dropLink p c s).port p).train.role = none ∧ (dropLink p c s).summary.linkDown.has p = true := by
  simp only [dropLink, raise_port, State.modPort_port_self, raise_summary, Summary.add]
  exact ⟨rfl, rfl, rfl, by rw [PortSet.has_insert]; simp⟩

theorem unholdPort_facts (code : Nat) (f : HoldReasons → HoldReasons) (a : Port) :
    (unholdPort code f a).train.lastDrop = a.train.lastDrop ∧
      ((unholdPort code f a).train.state = a.train.state ∧ (unholdPort code f a).train.grade = a.train.grade ∧
          (unholdPort code f a).train.role = a.train.role ∨
        a.train.state = .held ∧ (unholdPort code f a).train.grade = none ∧ (unholdPort code f a).train.role = none) := by
  simp only [unholdPort]; split
  · next h => simp only [portReEntry]; split <;> exact ⟨rfl, Or.inr ⟨h.1, rfl, rfl⟩⟩
  · exact ⟨rfl, Or.inl ⟨rfl, rfl, rfl⟩⟩

theorem holdPort_facts (f : HoldReasons → HoldReasons) (a : Port) :
    (holdPort f a).train.lastDrop = a.train.lastDrop ∧
      ((holdPort f a).train.state = a.train.state ∧ (holdPort f a).train.grade = a.train.grade ∧
          (holdPort f a).train.role = a.train.role ∨
        a.train.state ≠ .held ∧ (holdPort f a).train.grade = none ∧ (holdPort f a).train.role = none) := by
  simp only [holdPort]; split
  · exact ⟨rfl, Or.inl ⟨rfl, rfl, rfl⟩⟩
  · next h => exact ⟨rfl, Or.inr ⟨h, rfl, rfl⟩⟩

theorem UpOrDropped.other {p q : PortId} {s : State} (h : UpOrDropped p s) (f : Port → Port) (hq : q ≠ p) :
    UpOrDropped p (s.modPort q f) := by
  simp only [UpOrDropped, State.modPort_port_ne _ _ _ f hq, State.modPort_summary]; exact h

theorem UpOrDropped.raise {p : PortId} {s : State} (h : UpOrDropped p s) (e : Event) : UpOrDropped p (Machine.raise e s) := by
  rcases h with h | ⟨a, b, c, d⟩
  · exact Or.inl (by rw [raise_port]; exact h)
  · exact Or.inr ⟨by rw [raise_port]; exact a, by rw [raise_port]; exact b, by rw [raise_port]; exact c,
      by rw [raise_summary]; exact Summary.add_linkDown _ _ _ d⟩

theorem upOrDropped_closed (p : PortId) : Closed (UpOrDropped p) where
  quiet _ _ _ _ _ _ _ _ h := h
  raised e _ h := h.raise e
  minor q f s hf h := by
    by_cases hq : q = p
    · subst hq
      refine h.congr ?_ ?_ ?_ ?_ (Or.inr rfl) <;> rw [State.modPort_port_self]
      · exact (hf _).state
      · exact (hf _).lastDrop
      · exact (hf _).grade
      · exact (hf _).role
    · exact h.other f hq
  unheld q f s _ _ h := by
    by_cases hq : q = p
    · subst hq
      obtain ⟨u1, u2⟩ := unholdPort_facts s.setup.wakeSettle f (s.port q)
      rcases u2 with ⟨a, b, c⟩ | ⟨a, b, c⟩
      · refine h.congr ?_ ?_ ?_ ?_ (Or.inr rfl) <;> simp only [unhold, State.modPort_port_self, a, b, c, u1]
      · refine h.settled (by rw [a]; simp) ?_ ?_ ?_ rfl <;> simp only [unhold, State.modPort_port_self, b, c, u1]
    · exact h.other _ hq
  held q s _ hu h := by
    by_cases hq : q = p
    · subst hq
      obtain ⟨u1, u2⟩ := holdPort_facts addChannelHold (s.port q)
      rcases u2 with ⟨a, b, c⟩ | ⟨_, b, c⟩
      · refine h.congr ?_ ?_ ?_ ?_ (Or.inr rfl) <;> simp only [hold, State.modPort_port_self, a, b, c, u1]
      · refine h.settled hu ?_ ?_ ?_ rfl <;> simp only [hold, State.modPort_port_self, b, c, u1]
    · exact h.other _ hq
  dropHeld q s _ hu h := by
    by_cases hq : q = p
    · subst hq
      obtain ⟨d1, d2, d3, d4⟩ := dropLink_dropped q .heldForMeasurement s
      obtain ⟨u1, u2⟩ := holdPort_facts addChannelHold ((dropLink q .heldForMeasurement s).port q)
      right
      simp only [hold, State.modPort_port_self, State.modPort_summary]
      refine ⟨by rw [u1]; exact d1, ?_, ?_, d4⟩
      · rcases u2 with ⟨_, b, _⟩ | ⟨_, b, _⟩
        · exact b.trans d2
        · exact b
      · rcases u2 with ⟨_, _, c⟩ | ⟨_, _, c⟩
        · exact c.trans d3
        · exact c
    · exact ((h.other _ hq).raise _).other _ hq
  shadows s h := by
    obtain ⟨a, _, _, b, c, d⟩ := shadowChange_facts s.setup.window (shadowed s p) (s.port p)
    refine h.congr ?_ ?_ ?_ ?_ (Or.inr rfl) <;> simp only [updateShadows, State.mapPorts_port, a, b, c, d]
  channel _ _ _ _ h := h
  begun _ _ _ _ _ h := h
  placed _ _ _ _ h := h
  taken _ _ h := h

end Sys2Proof.Machine
end

