-- ==== Sys2Proof/WellFormed.lean ====
section
/-! DEFINITION. Which terms of `Instr` spell a command that can reach the part: checks on the term alone, not on the
state. A frame carries at most 15 payload bytes (Table 8-2); a capture gives at most 1536 samples a pair (Table 0-6). -/

namespace Sys2Proof

/-- The longest payload of a frame (Table 8-2). -/
def maxPayload : Nat := 15

/-- A request of n bytes with its disregarded bytes fits in a frame. -/
def Via.fits (v : Via) (n : Nat) : Bool := decide (n + v.extra.length ≤ maxPayload)

/-- The widest capture window, in ticks (Table 0-6). -/
def maxCapture : Nat := 1536

def CaptureInput.fits (c : CaptureInput) : Bool := c.toList.all (fun l => decide (l.length ≤ maxCapture))

/-- One port's calibration input: at most 64 shots a pair and reach (R185). -/
def CalibrationInput.fits (c : CalibrationInput) : Bool :=
  c.toList.all (fun r => [r.short, r.medium, r.long].all (fun shots =>
    decide (shots.length ≤ 64) && shots.all (fun l => decide (l.length ≤ maxCapture))))

/-- A frame's payload length and fields are four bits wide, its payload as long as it says. -/
def RxFrame.fits (f : RxFrame) : Bool := decide (f.payload.length ≤ maxPayload)

/-- A frame of a source other than the console's and unused numbers: 0..7 (Table 8-4). -/
def peerSource (src : BitVec 4) : Bool := decide (src.toNat < 8)

/-- The longest trip a probe return measures, in quarter-ticks (Table 2-1). -/
def maxTrip : Nat := 6143

/-- The ways each kind of frame can leave the list (Table 8-5): only RELEASE and REPORT are discarded. -/
def Departure.notDiscarded : Departure → Bool
  | .sent => true
  | .voided => true
  | .abandoned => true
  | .discarded => false

/-- The covered bytes and spacers of a frame, as many as its own length field (bit positions 15 to 18) places before the
check byte (Table 8-2). -/
def heardToCheck (bytes : List Byte) (spacers : List Bool) : Bool :=
  decide (bytes.length = spacers.length) && decide (2 ≤ bytes.length) &&
    decide ((Machine.bitsToCheck bytes 0 spacers).length = Machine.checkEnd (Machine.bitsToCheck bytes 0 spacers))

/-- The command is well formed. -/
def WellFormed : Instr → Bool
  | .powerOnReset _ => true
  | .hardReset _ => true
  | .energyAppears _ _ => true
  | .energyDisappears _ => true
  | .symbolError _ => true
  | .idleError _ => true
  | .marginDip _ => true
  | .lossOfLock _ => true
  | .energyWake _ => true
  | .settleExpiry _ => true
  | .offerPageSend _ => true
  | .crossoverAlternation _ => true
  | .offerPageHearing _ _ => true
  | .legacyDetection _ => true
  | .offeringLimit _ => true
  | .identificationSend _ => true
  | .identificationHearing _ _ _ _ => true
  | .identificationLimit _ => true
  | .pairQualifies _ _ => true
  | .crossingListenLimit _ => true
  | .identifiedMarkerHeard _ => true
  | .probedMarkerHeard _ => true
  | .probeLaunch _ => true
  | .partnerProbe _ _ => true
  | .probeReturn _ _ quarterTicks => decide (quarterTicks ≤ maxTrip)
  | .doneMarkerHeard _ => true
  | .resolvingLimit _ => true
  | .errorFreeTarget _ => true
  | .qualifyingLimit _ => true
  | .backoffExpiry _ => true
  | .windowExpiry _ => true
  | .silence _ => true
  | .dropSettleExpiry _ => true
  | .measure via _ _ _ _ _ => via.fits 6
  | .sweep via _ _ _ _ _ => via.fits 6
  | .sweepPeriodExpiry => true
  | .cancel via _ _ => via.fits 3
  | .cancelAll via _ _ => via.fits 3
  | .cancelSweep via _ _ _ => via.fits 3
  | .restart via _ => via.fits 3
  | .restartFull via _ => via.fits 3
  | .force via _ _ => via.fits 4
  | .offer via _ _ _ => via.fits 5
  | .enable via _ => via.fits 3
  | .disable via _ => via.fits 3
  | .resetPort via _ => via.fits 3
  | .resetStation via _ => via.fits 3
  | .querySummary via => via.fits 2
  | .queryPort via _ _ => via.fits 4
  | .queryCounters via _ _ => via.fits 4
  | .queryDiagHead via _ => via.fits 3
  | .queryEcho via _ _ _ => via.fits 5
  | .queryLength via _ => via.fits 3
  | .queryStation via _ => via.fits 3
  | .queryClaimEntry via _ => via.fits 3
  | .setup via _ operands => via.fits (2 + operands.length)
  | .setupSegmentEntry via _ _ _ _ => via.fits 5
  | .lock via => via.fits 1
  | .calibrate via => via.fits 1
  | .channelSettleExpiry _ => true
  | .claimFrameDeparture _ how => how.notDiscarded
  | .holdoffEnd _ => true
  | .yieldLimit _ => true
  | .launchTrigger _ => true
  | .busyCheckFailure _ _ => true
  | .captureClose _ input => input.fits
  | .pairResultReturn _ => true
  | .burstEnd _ => true
  | .releaseDeparture _ _ => true
  | .budgetWindowExpiry => true
  | .paceIntervalPassed => true
  | .claimTaken src _ _ _ _ => peerSource src
  | .releaseTaken src _ _ => peerSource src
  | .rejoinTaken src _ => peerSource src
  | .viewEntryActive _ _ => true
  | .viewEntryExpiry _ _ => true
  | .frameStart => true
  | .arbitrationLoss => true
  | .transmitFault => true
  | .receiveCheckFailure bytes _ spacers => heardToCheck bytes spacers
  | .ownNumberFrameTaken _ _ payload => decide (payload.length ≤ maxPayload)
  | .reportDeparture _ => true
  | .alertDeparture how => how.notDiscarded
  | .rejoinDeparture how => how.notDiscarded
  | .stuckEntry => true
  | .lineReturn => true
  | .returnListenInEnd => true
  | .listenTimerExpiry => true
  | .calibrationDone input => decide (input.length ≤ 12) && input.all CalibrationInput.fits
  | .setupWindowExpiry => true
  | .lineIdle => true
  | .strayBit => true
  | .discardedFrame frame _ => frame.fits
  | .badKindRequest _ payload => decide (1 ≤ payload.length) && decide (payload.length ≤ maxPayload)
  | .g2IdleStreamChange _ _ => true
  | .partnerLinkSignalChange _ _ _ => true

end Sys2Proof
end

