-- ==== Sys2Proof/Laws/PerInstr.lean ====
section
/-! SUPPORT. Laws stated once for each command: the bytes of a request command as Table 10-1 orders them, and that a well-formed
command's payload fits in a frame. -/

namespace Sys2Proof.Laws

open Sys2Proof.Machine

/-- The payload of a REQUEST frame that carries the command (Table 10-1), where the command is a request of the table. -/
def requestBytes : Instr → Option (List Byte)
  | .powerOnReset _ => none
  | .hardReset _ => none
  | .energyAppears _ _ => none
  | .energyDisappears _ => none
  | .symbolError _ => none
  | .idleError _ => none
  | .marginDip _ => none
  | .lossOfLock _ => none
  | .energyWake _ => none
  | .settleExpiry _ => none
  | .offerPageSend _ => none
  | .crossoverAlternation _ => none
  | .offerPageHearing _ _ => none
  | .legacyDetection _ => none
  | .offeringLimit _ => none
  | .identificationSend _ => none
  | .identificationHearing _ _ _ _ => none
  | .identificationLimit _ => none
  | .pairQualifies _ _ => none
  | .crossingListenLimit _ => none
  | .identifiedMarkerHeard _ => none
  | .probedMarkerHeard _ => none
  | .probeLaunch _ => none
  | .partnerProbe _ _ => none
  | .probeReturn _ _ _ => none
  | .doneMarkerHeard _ => none
  | .resolvingLimit _ => none
  | .errorFreeTarget _ => none
  | .qualifyingLimit _ => none
  | .backoffExpiry _ => none
  | .windowExpiry _ => none
  | .silence _ => none
  | .dropSettleExpiry _ => none
  | .measure via port pairs reach averaging intrusive => some ([1, port, pairs, reach, averaging, intrusive] ++ via.extra)
  | .sweep via hi lo reach averaging period => some ([2, hi, lo, reach, averaging, period] ++ via.extra)
  | .sweepPeriodExpiry => none
  | .cancel via port other => some ([3, port, cancelFlags other false false] ++ via.extra)
  | .cancelAll via port other => some ([3, port, cancelFlags other false true] ++ via.extra)
  | .cancelSweep via all port other => some ([3, port, cancelFlags other true all] ++ via.extra)
  | .restart via port => some ([4, port, 0] ++ via.extra)
  | .restartFull via port => some ([4, port, 1] ++ via.extra)
  | .force via port grade => some ([4, port, 2, grade] ++ via.extra)
  | .offer via port grades pref => some ([4, port, 3, grades, pref] ++ via.extra)
  | .enable via port => some ([4, port, 4] ++ via.extra)
  | .disable via port => some ([4, port, 5] ++ via.extra)
  | .resetPort via port => some ([9, 0, port] ++ via.extra)
  | .resetStation via port => some ([9, 1, port] ++ via.extra)
  | .querySummary via => some ([5, 0] ++ via.extra)
  | .queryPort via port page => some ([5, 1, port, page] ++ via.extra)
  | .queryCounters via port page => some ([5, 2, port, page] ++ via.extra)
  | .queryDiagHead via port => some ([5, 3, port] ++ via.extra)
  | .queryEcho via port pair index => some ([5, 4, port, pair, index] ++ via.extra)
  | .queryLength via port => some ([5, 5, port] ++ via.extra)
  | .queryStation via page => some ([5, 6, page] ++ via.extra)
  | .queryClaimEntry via index => some ([5, 7, index] ++ via.extra)
  | .setup via item operands => some (([6, item] ++ operands) ++ via.extra)
  | .setupSegmentEntry via index port hi lo => some ([6, byteOf (1 + index.val), port, hi, lo] ++ via.extra)
  | .lock via => some ([7] ++ via.extra)
  | .calibrate via => some ([8] ++ via.extra)
  | .channelSettleExpiry _ => none
  | .claimFrameDeparture _ _ => none
  | .holdoffEnd _ => none
  | .yieldLimit _ => none
  | .launchTrigger _ => none
  | .busyCheckFailure _ _ => none
  | .captureClose _ _ => none
  | .pairResultReturn _ => none
  | .burstEnd _ => none
  | .releaseDeparture _ _ => none
  | .budgetWindowExpiry => none
  | .paceIntervalPassed => none
  | .claimTaken _ _ _ _ _ => none
  | .releaseTaken _ _ _ => none
  | .rejoinTaken _ _ => none
  | .viewEntryActive _ _ => none
  | .viewEntryExpiry _ _ => none
  | .frameStart => none
  | .arbitrationLoss => none
  | .transmitFault => none
  | .receiveCheckFailure _ _ _ => none
  | .ownNumberFrameTaken _ _ _ => none
  | .reportDeparture _ => none
  | .alertDeparture _ => none
  | .rejoinDeparture _ => none
  | .stuckEntry => none
  | .lineReturn => none
  | .returnListenInEnd => none
  | .listenTimerExpiry => none
  | .calibrationDone _ => none
  | .setupWindowExpiry => none
  | .lineIdle => none
  | .strayBit => none
  | .discardedFrame _ _ => none
  | .badKindRequest _ payload => some payload
  | .g2IdleStreamChange _ _ => none
  | .partnerLinkSignalChange _ _ _ => none

/-- A well-formed request command fits in the payload of a frame (Tables 8-2 and 8-3). -/
def WellFormedPayload.Statement (i : Instr) : Prop :=
  WellFormed i = true → ∀ bytes, requestBytes i = some bytes → bytes.length ≤ maxPayload

/-- Bytes that fit beside the disregarded ones fit with them. -/
theorem fits_append (via : Via) (bytes : List Byte) (h : via.fits bytes.length = true) :
    (bytes ++ via.extra).length ≤ maxPayload := by
  rw [List.length_append]
  exact of_decide_eq_true h

theorem WellFormedPayload.powerOnReset (straps : Straps) : WellFormedPayload.Statement (.powerOnReset straps) := by
  intro _ _ e
  cases e

theorem WellFormedPayload.hardReset (straps : Straps) : WellFormedPayload.Statement (.hardReset straps) := by
  intro _ _ e
  cases e

theorem WellFormedPayload.energyAppears (p : PortId) (atEntry : Bool) : WellFormedPayload.Statement (.energyAppears p atEntry) := by
  intro _ _ e
  cases e

theorem WellFormedPayload.energyDisappears (p : PortId) : WellFormedPayload.Statement (.energyDisappears p) := by
  intro _ _ e
  cases e

theorem WellFormedPayload.symbolError (p : PortId) : WellFormedPayload.Statement (.symbolError p) := by
  intro _ _ e
  cases e

theorem WellFormedPayload.idleError (p : PortId) : WellFormedPayload.Statement (.idleError p) := by
  intro _ _ e
  cases e

theorem WellFormedPayload.marginDip (p : PortId) : WellFormedPayload.Statement (.marginDip p) := by
  intro _ _ e
  cases e

theorem WellFormedPayload.lossOfLock (p : PortId) : WellFormedPayload.Statement (.lossOfLock p) := by
  intro _ _ e
  cases e

theorem WellFormedPayload.energyWake (p : PortId) : WellFormedPayload.Statement (.energyWake p) := by
  intro _ _ e
  cases e

theorem WellFormedPayload.settleExpiry (p : PortId) : WellFormedPayload.Statement (.settleExpiry p) := by
  intro _ _ e
  cases e

theorem WellFormedPayload.offerPageSend (p : PortId) : WellFormedPayload.Statement (.offerPageSend p) := by
  intro _ _ e
  cases e

theorem WellFormedPayload.crossoverAlternation (p : PortId) : WellFormedPayload.Statement (.crossoverAlternation p) := by
  intro _ _ e
  cases e

theorem WellFormedPayload.offerPageHearing (p : PortId) (page : OfferPage) : WellFormedPayload.Statement (.offerPageHearing p page) := by
  intro _ _ e
  cases e

theorem WellFormedPayload.legacyDetection (p : PortId) : WellFormedPayload.Statement (.legacyDetection p) := by
  intro _ _ e
  cases e

theorem WellFormedPayload.offeringLimit (p : PortId) : WellFormedPayload.Statement (.offeringLimit p) := by
  intro _ _ e
  cases e

theorem WellFormedPayload.identificationSend (p : PortId) : WellFormedPayload.Statement (.identificationSend p) := by
  intro _ _ e
  cases e

theorem WellFormedPayload.identificationHearing (p : PortId) (on : Pair) (letter : Pair) (inverted : Bool) : WellFormedPayload.Statement (.identificationHearing p on letter inverted) := by
  intro _ _ e
  cases e

theorem WellFormedPayload.identificationLimit (p : PortId) : WellFormedPayload.Statement (.identificationLimit p) := by
  intro _ _ e
  cases e

theorem WellFormedPayload.pairQualifies (p : PortId) (on : ListenPair) : WellFormedPayload.Statement (.pairQualifies p on) := by
  intro _ _ e
  cases e

theorem WellFormedPayload.crossingListenLimit (p : PortId) : WellFormedPayload.Statement (.crossingListenLimit p) := by
  intro _ _ e
  cases e

theorem WellFormedPayload.identifiedMarkerHeard (p : PortId) : WellFormedPayload.Statement (.identifiedMarkerHeard p) := by
  intro _ _ e
  cases e

theorem WellFormedPayload.probedMarkerHeard (p : PortId) : WellFormedPayload.Statement (.probedMarkerHeard p) := by
  intro _ _ e
  cases e

theorem WellFormedPayload.probeLaunch (p : PortId) : WellFormedPayload.Statement (.probeLaunch p) := by
  intro _ _ e
  cases e

theorem WellFormedPayload.partnerProbe (p : PortId) (on : Pair) : WellFormedPayload.Statement (.partnerProbe p on) := by
  intro _ _ e
  cases e

theorem WellFormedPayload.probeReturn (p : PortId) (on : Pair) (quarterTicks : Nat) : WellFormedPayload.Statement (.probeReturn p on quarterTicks) := by
  intro _ _ e
  cases e

theorem WellFormedPayload.doneMarkerHeard (p : PortId) : WellFormedPayload.Statement (.doneMarkerHeard p) := by
  intro _ _ e
  cases e

theorem WellFormedPayload.resolvingLimit (p : PortId) : WellFormedPayload.Statement (.resolvingLimit p) := by
  intro _ _ e
  cases e

theorem WellFormedPayload.errorFreeTarget (p : PortId) : WellFormedPayload.Statement (.errorFreeTarget p) := by
  intro _ _ e
  cases e

theorem WellFormedPayload.qualifyingLimit (p : PortId) : WellFormedPayload.Statement (.qualifyingLimit p) := by
  intro _ _ e
  cases e

theorem WellFormedPayload.backoffExpiry (p : PortId) : WellFormedPayload.Statement (.backoffExpiry p) := by
  intro _ _ e
  cases e

theorem WellFormedPayload.windowExpiry (p : PortId) : WellFormedPayload.Statement (.windowExpiry p) := by
  intro _ _ e
  cases e

theorem WellFormedPayload.silence (p : PortId) : WellFormedPayload.Statement (.silence p) := by
  intro _ _ e
  cases e

theorem WellFormedPayload.dropSettleExpiry (p : PortId) : WellFormedPayload.Statement (.dropSettleExpiry p) := by
  intro _ _ e
  cases e

theorem WellFormedPayload.measure (via : Via) (port pairs reach averaging intrusive : Byte) : WellFormedPayload.Statement (.measure via port pairs reach averaging intrusive) := by
  intro h _ e
  cases e
  exact fits_append via [1, port, pairs, reach, averaging, intrusive] h

theorem WellFormedPayload.sweep (via : Via) (portsHi portsLo reach averaging period : Byte) : WellFormedPayload.Statement (.sweep via portsHi portsLo reach averaging period) := by
  intro h _ e
  cases e
  exact fits_append via [2, portsHi, portsLo, reach, averaging, period] h

theorem WellFormedPayload.sweepPeriodExpiry : WellFormedPayload.Statement (.sweepPeriodExpiry) := by
  intro _ _ e
  cases e

theorem WellFormedPayload.cancel (via : Via) (port : Byte) (other : BitVec 6) : WellFormedPayload.Statement (.cancel via port other) := by
  intro h _ e
  cases e
  exact fits_append via [3, port, cancelFlags other false false] h

theorem WellFormedPayload.cancelAll (via : Via) (port : Byte) (other : BitVec 6) : WellFormedPayload.Statement (.cancelAll via port other) := by
  intro h _ e
  cases e
  exact fits_append via [3, port, cancelFlags other false true] h

theorem WellFormedPayload.cancelSweep (via : Via) (all : Bool) (port : Byte) (other : BitVec 6) : WellFormedPayload.Statement (.cancelSweep via all port other) := by
  intro h _ e
  cases e
  exact fits_append via [3, port, cancelFlags other true all] h

theorem WellFormedPayload.restart (via : Via) (port : Byte) : WellFormedPayload.Statement (.restart via port) := by
  intro h _ e
  cases e
  exact fits_append via [4, port, 0] h

theorem WellFormedPayload.restartFull (via : Via) (port : Byte) : WellFormedPayload.Statement (.restartFull via port) := by
  intro h _ e
  cases e
  exact fits_append via [4, port, 1] h

theorem WellFormedPayload.force (via : Via) (port grade : Byte) : WellFormedPayload.Statement (.force via port grade) := by
  intro h _ e
  cases e
  exact fits_append via [4, port, 2, grade] h

theorem WellFormedPayload.offer (via : Via) (port grades pref : Byte) : WellFormedPayload.Statement (.offer via port grades pref) := by
  intro h _ e
  cases e
  exact fits_append via [4, port, 3, grades, pref] h

theorem WellFormedPayload.enable (via : Via) (port : Byte) : WellFormedPayload.Statement (.enable via port) := by
  intro h _ e
  cases e
  exact fits_append via [4, port, 4] h

theorem WellFormedPayload.disable (via : Via) (port : Byte) : WellFormedPayload.Statement (.disable via port) := by
  intro h _ e
  cases e
  exact fits_append via [4, port, 5] h

theorem WellFormedPayload.resetPort (via : Via) (port : Byte) : WellFormedPayload.Statement (.resetPort via port) := by
  intro h _ e
  cases e
  exact fits_append via [9, 0, port] h

theorem WellFormedPayload.resetStation (via : Via) (port : Byte) : WellFormedPayload.Statement (.resetStation via port) := by
  intro h _ e
  cases e
  exact fits_append via [9, 1, port] h

theorem WellFormedPayload.querySummary (via : Via) : WellFormedPayload.Statement (.querySummary via) := by
  intro h _ e
  cases e
  exact fits_append via [5, 0] h

theorem WellFormedPayload.queryPort (via : Via) (port page : Byte) : WellFormedPayload.Statement (.queryPort via port page) := by
  intro h _ e
  cases e
  exact fits_append via [5, 1, port, page] h

theorem WellFormedPayload.queryCounters (via : Via) (port page : Byte) : WellFormedPayload.Statement (.queryCounters via port page) := by
  intro h _ e
  cases e
  exact fits_append via [5, 2, port, page] h

theorem WellFormedPayload.queryDiagHead (via : Via) (port : Byte) : WellFormedPayload.Statement (.queryDiagHead via port) := by
  intro h _ e
  cases e
  exact fits_append via [5, 3, port] h

theorem WellFormedPayload.queryEcho (via : Via) (port pair index : Byte) : WellFormedPayload.Statement (.queryEcho via port pair index) := by
  intro h _ e
  cases e
  exact fits_append via [5, 4, port, pair, index] h

theorem WellFormedPayload.queryLength (via : Via) (port : Byte) : WellFormedPayload.Statement (.queryLength via port) := by
  intro h _ e
  cases e
  exact fits_append via [5, 5, port] h

theorem WellFormedPayload.queryStation (via : Via) (page : Byte) : WellFormedPayload.Statement (.queryStation via page) := by
  intro h _ e
  cases e
  exact fits_append via [5, 6, page] h

theorem WellFormedPayload.queryClaimEntry (via : Via) (index : Byte) : WellFormedPayload.Statement (.queryClaimEntry via index) := by
  intro h _ e
  cases e
  exact fits_append via [5, 7, index] h

theorem WellFormedPayload.setup (via : Via) (item : Byte) (operands : List Byte) : WellFormedPayload.Statement (.setup via item operands) := by
  intro h _ e
  cases e
  have h : 2 + operands.length + via.extra.length ≤ maxPayload := of_decide_eq_true h
  simp only [List.length_append, List.length_cons, List.length_nil]
  omega

theorem WellFormedPayload.setupSegmentEntry (via : Via) (index : Fin 4) (port hi lo : Byte) : WellFormedPayload.Statement (.setupSegmentEntry via index port hi lo) := by
  intro h _ e
  cases e
  exact fits_append via [6, byteOf (1 + index.val), port, hi, lo] h

theorem WellFormedPayload.lock (via : Via) : WellFormedPayload.Statement (.lock via) := by
  intro h _ e
  cases e
  exact fits_append via [7] h

theorem WellFormedPayload.calibrate (via : Via) : WellFormedPayload.Statement (.calibrate via) := by
  intro h _ e
  cases e
  exact fits_append via [8] h

theorem WellFormedPayload.channelSettleExpiry (ch : ChannelId) : WellFormedPayload.Statement (.channelSettleExpiry ch) := by
  intro _ _ e
  cases e

theorem WellFormedPayload.claimFrameDeparture (ch : ChannelId) (how : Departure) : WellFormedPayload.Statement (.claimFrameDeparture ch how) := by
  intro _ _ e
  cases e

theorem WellFormedPayload.holdoffEnd (ch : ChannelId) : WellFormedPayload.Statement (.holdoffEnd ch) := by
  intro _ _ e
  cases e

theorem WellFormedPayload.yieldLimit (ch : ChannelId) : WellFormedPayload.Statement (.yieldLimit ch) := by
  intro _ _ e
  cases e

theorem WellFormedPayload.launchTrigger (ch : ChannelId) : WellFormedPayload.Statement (.launchTrigger ch) := by
  intro _ _ e
  cases e

theorem WellFormedPayload.busyCheckFailure (ch : ChannelId) (sample : Int) : WellFormedPayload.Statement (.busyCheckFailure ch sample) := by
  intro _ _ e
  cases e

theorem WellFormedPayload.captureClose (ch : ChannelId) (input : CaptureInput) : WellFormedPayload.Statement (.captureClose ch input) := by
  intro _ _ e
  cases e

theorem WellFormedPayload.pairResultReturn (ch : ChannelId) : WellFormedPayload.Statement (.pairResultReturn ch) := by
  intro _ _ e
  cases e

theorem WellFormedPayload.burstEnd (ch : ChannelId) : WellFormedPayload.Statement (.burstEnd ch) := by
  intro _ _ e
  cases e

theorem WellFormedPayload.releaseDeparture (ch : ChannelId) (how : Departure) : WellFormedPayload.Statement (.releaseDeparture ch how) := by
  intro _ _ e
  cases e

theorem WellFormedPayload.budgetWindowExpiry : WellFormedPayload.Statement (.budgetWindowExpiry) := by
  intro _ _ e
  cases e

theorem WellFormedPayload.paceIntervalPassed : WellFormedPayload.Statement (.paceIntervalPassed) := by
  intro _ _ e
  cases e

theorem WellFormedPayload.claimTaken (src : BitVec 4) (number target priority duration : Byte) : WellFormedPayload.Statement (.claimTaken src number target priority duration) := by
  intro _ _ e
  cases e

theorem WellFormedPayload.releaseTaken (src : BitVec 4) (number target : Byte) : WellFormedPayload.Statement (.releaseTaken src number target) := by
  intro _ _ e
  cases e

theorem WellFormedPayload.rejoinTaken (src : BitVec 4) (cause : Byte) : WellFormedPayload.Statement (.rejoinTaken src cause) := by
  intro _ _ e
  cases e

theorem WellFormedPayload.viewEntryActive (station : StationNo) (number : Byte) : WellFormedPayload.Statement (.viewEntryActive station number) := by
  intro _ _ e
  cases e

theorem WellFormedPayload.viewEntryExpiry (station : StationNo) (number : Byte) : WellFormedPayload.Statement (.viewEntryExpiry station number) := by
  intro _ _ e
  cases e

theorem WellFormedPayload.frameStart : WellFormedPayload.Statement (.frameStart) := by
  intro _ _ e
  cases e

theorem WellFormedPayload.arbitrationLoss : WellFormedPayload.Statement (.arbitrationLoss) := by
  intro _ _ e
  cases e

theorem WellFormedPayload.transmitFault : WellFormedPayload.Statement (.transmitFault) := by
  intro _ _ e
  cases e

theorem WellFormedPayload.receiveCheckFailure (bytes : List Byte) (check : Byte) (spacers : List Bool) :
    WellFormedPayload.Statement (.receiveCheckFailure bytes check spacers) := by
  intro _ _ e
  cases e

theorem WellFormedPayload.ownNumberFrameTaken (kind dest : BitVec 4) (payload : List Byte) : WellFormedPayload.Statement (.ownNumberFrameTaken kind dest payload) := by
  intro _ _ e
  cases e

theorem WellFormedPayload.reportDeparture (how : Departure) : WellFormedPayload.Statement (.reportDeparture how) := by
  intro _ _ e
  cases e

theorem WellFormedPayload.alertDeparture (how : Departure) : WellFormedPayload.Statement (.alertDeparture how) := by
  intro _ _ e
  cases e

theorem WellFormedPayload.rejoinDeparture (how : Departure) : WellFormedPayload.Statement (.rejoinDeparture how) := by
  intro _ _ e
  cases e

theorem WellFormedPayload.stuckEntry : WellFormedPayload.Statement (.stuckEntry) := by
  intro _ _ e
  cases e

theorem WellFormedPayload.lineReturn : WellFormedPayload.Statement (.lineReturn) := by
  intro _ _ e
  cases e

theorem WellFormedPayload.returnListenInEnd : WellFormedPayload.Statement (.returnListenInEnd) := by
  intro _ _ e
  cases e

theorem WellFormedPayload.listenTimerExpiry : WellFormedPayload.Statement (.listenTimerExpiry) := by
  intro _ _ e
  cases e

theorem WellFormedPayload.calibrationDone (input : List CalibrationInput) : WellFormedPayload.Statement (.calibrationDone input) := by
  intro _ _ e
  cases e

theorem WellFormedPayload.setupWindowExpiry : WellFormedPayload.Statement (.setupWindowExpiry) := by
  intro _ _ e
  cases e

theorem WellFormedPayload.lineIdle : WellFormedPayload.Statement (.lineIdle) := by
  intro _ _ e
  cases e

theorem WellFormedPayload.strayBit : WellFormedPayload.Statement (.strayBit) := by
  intro _ _ e
  cases e

theorem WellFormedPayload.discardedFrame (frame : RxFrame) (voided : Bool) : WellFormedPayload.Statement (.discardedFrame frame voided) := by
  intro _ _ e
  cases e

theorem WellFormedPayload.badKindRequest (broadcast : Bool) (payload : List Byte) : WellFormedPayload.Statement (.badKindRequest broadcast payload) := by
  intro h _ e
  cases e
  have h : (decide (1 ≤ payload.length) && decide (payload.length ≤ maxPayload)) = true := h
  rw [Bool.and_eq_true] at h
  exact of_decide_eq_true h.2

theorem WellFormedPayload.g2IdleStreamChange (p : PortId) (present : Bool) : WellFormedPayload.Statement (.g2IdleStreamChange p present) := by
  intro _ _ e
  cases e

theorem WellFormedPayload.partnerLinkSignalChange (p : PortId) (on : ListenPair) (present : Bool) : WellFormedPayload.Statement (.partnerLinkSignalChange p on present) := by
  intro _ _ e
  cases e

end Sys2Proof.Laws
end

