-- ==== Sys2Proof/Laws/Requests.lean ====
section
/-! SUPPORT. A request that is taken: what the request layer does once a frame ends ready, and the plain readings of operand
bytes. -/

namespace Sys2Proof.Machine

theorem endFrame_eq (s : State) : endFrame s = frameEnded s := rfl

theorem RequestReady.canTake {s : State} (h : RequestReady s) : canTake s = true := by
  obtain ⟨a, b, c, _⟩ := h
  simp [Machine.canTake, a, b, c]

theorem FrameReady.canTake {s : State} (h : FrameReady s) : canTake s = true := by
  obtain ⟨a, b, c⟩ := h
  simp [Machine.canTake, a, b, c]

theorem RequestReady.not_overrun {s : State} (h : RequestReady s) : overrun (endFrame s) = false := by
  obtain ⟨_, _, _, d⟩ := h
  exact decide_eq_false (Nat.not_le.mpr d)

/-- A request that ends ready and passes its checks is served by its block on the state at its end bit (R146, R171, R173). -/
theorem takeRequest_served {s : State} (h : RequestReady s) (b : Bool) (payload : List Byte) (serve : State → Served)
    (hf : firstFailure b payload s.station = none) :
    takeRequest b payload serve s = serveRequest (byteAt payload 0) serve (frameEnded s) := by
  have hf' : firstFailure b payload (endFrame s).station = none := hf
  simp only [takeRequest, h.canTake, requestLayer, h.not_overrun, hf', if_true]
  rfl

/-- A request that ends ready and fails a check is answered with that check's refusal (R173). -/
theorem takeRequest_refused {s : State} (h : RequestReady s) (b : Bool) (payload : List Byte) (serve : State → Served)
    (r : Reason) (hf : firstFailure b payload s.station = some r) :
    takeRequest b payload serve s = reply (byteAt payload 0) (.refused r) (frameEnded s) := by
  have hf' : firstFailure b payload (endFrame s).station = some r := hf
  simp only [takeRequest, h.canTake, requestLayer, h.not_overrun, hf', if_true]
  rfl

/-- A frame that ends ready, with a request, while two REPORT frames wait: it is dropped, counted and raised (R146). -/
theorem takeRequest_overrun {s : State} (h : FrameReady s) (b : Bool) (payload : List Byte) (serve : State → Served)
    (ho : 2 ≤ countKind .report s.line.list) :
    takeRequest b payload serve s = raise .requestOverrun
      { frameEnded s with counters := { s.counters with overruns := satCount s.counters.overruns } } := by
  have ho' : overrun (endFrame s) = true := decide_eq_true ho
  simp only [takeRequest, h.canTake, requestLayer, ho', if_true]
  rfl

/-- The flag byte of a CANCEL is the one its bits spell (Tables 10-1 and 10-2). -/
theorem cancelFlags_eq (other : BitVec 6) (sweep all : Bool) :
    cancelFlags other sweep all =
      byteOf (4 * other.toNat + if sweep then (if all then 3 else 2) else (if all then 1 else 0)) := by
  revert other sweep all
  decide

/-- Every request row hands its payload to the request layer. -/
theorem exec_request {c : Instr} {b : Bool} {payload : List Byte} (h : requestOf c = some (b, payload)) (hp : payload ≠ [])
    (s : State) : ∃ serve, exec c s = .next (takeRequest b payload serve s) := by
  cases c <;> simp only [requestOf, Option.some.injEq, Prod.mk.injEq, reduceCtorEq] at h
  case badKindRequest =>
    obtain ⟨rfl, rfl⟩ := h
    exact ⟨_, by simp only [exec, execBadKindRequest]; rw [if_neg (by simpa using hp)]⟩
  case cancel via port other =>
    obtain ⟨rfl, rfl⟩ := h
    exact ⟨_, by simp only [exec, execCancel, cancelFlags_eq]; rfl⟩
  case cancelAll via port other =>
    obtain ⟨rfl, rfl⟩ := h
    exact ⟨_, by simp only [exec, execCancelAll, cancelFlags_eq]; rfl⟩
  case cancelSweep via all port other =>
    obtain ⟨rfl, rfl⟩ := h
    exact ⟨_, by simp only [exec, execCancelSweep, cancelFlags_eq]; rfl⟩
  all_goals
    obtain ⟨rfl, rfl⟩ := h
    exact ⟨_, rfl⟩

theorem byteOf_toNat {n : Nat} (h : n < 256) : (byteOf n).toNat = n := by
  simp [byteOf, BitVec.toNat_ofNat]; omega

/-- A port number's byte reads as the port. -/
@[simp] theorem portOf_byteOf (p : PortId) : portOf (byteOf p.val) = some p := by
  have h : (byteOf p.val).toNat = p.val := byteOf_toNat (by omega)
  simp [portOf, h]

end Sys2Proof.Machine
end

