-- ==== Sys2Proof/Tests/Slice0.lean ====
section
/-! SUPPORT. Tests: the worked examples and tables of the spec, one refused term for each check of WellFormed, one or two small
tests of single commands, and for each statement with hypotheses a theorem that shows states and operands meeting them. -/

namespace Sys2Proof.Tests

open Sys2Proof Sys2Proof.Machine

/-! ### WellFormed refuses an ill-formed term for each of its checks -/

def toStation (n : Nat) : Via := ⟨false, List.replicate n 0⟩

theorem test_refuses_a_trip_of_6144 : WellFormed (.probeReturn 0 .A 6144) = false ∧ WellFormed (.probeReturn 0 .A 6143) = true := by
  decide

theorem test_refuses_requests_beyond_15_bytes :
    ([.measure (toStation 10) 0 1 0 1 0, .sweep (toStation 10) 0 1 0 1 0, .cancel (toStation 13) 0 0,
      .cancelAll (toStation 13) 0 0, .cancelSweep (toStation 13) true 0 0, .restart (toStation 13) 0,
      .restartFull (toStation 13) 0, .force (toStation 12) 0 1, .offer (toStation 11) 0 1 0, .enable (toStation 13) 0,
      .disable (toStation 13) 0, .resetPort (toStation 13) 0, .resetStation (toStation 13) 0, .querySummary (toStation 14),
      .queryPort (toStation 12) 0 0, .queryCounters (toStation 12) 0 0, .queryDiagHead (toStation 13) 0,
      .queryEcho (toStation 11) 0 0 0, .queryLength (toStation 13) 0, .queryStation (toStation 13) 0,
      .queryClaimEntry (toStation 13) 0, .setup (toStation 13) 7 [0], .setupSegmentEntry (toStation 11) 0 0 0 0,
      .lock (toStation 15), .calibrate (toStation 15), .badKindRequest false (List.replicate 16 0),
      .badKindRequest false []] : List Instr).all (fun i => !(WellFormed i)) = true := by
  decide

theorem test_refuses_frames_and_departures :
    ([.claimFrameDeparture 0 .discarded, .alertDeparture .discarded, .rejoinDeparture .discarded,
      .claimTaken 8 0 0 0 1, .releaseTaken 15 0 0, .rejoinTaken 9 0, .receiveCheckFailure [0] 0 [true],
      .receiveCheckFailure [0, 1] 0 [true, true], .receiveCheckFailure [0, 0] 0 [true], .ownNumberFrameTaken 0 0 (List.replicate 16 0),
      .discardedFrame ⟨0, 0, 0, List.replicate 16 0⟩ false] : List Instr).all (fun i => !(WellFormed i)) = true := by
  decide

theorem test_refuses_long_captures :
    WellFormed (.captureClose 0 ⟨List.replicate 1537 0, [], [], []⟩) = false ∧
    WellFormed (.calibrationDone (List.replicate 13 (PerPair.const ⟨[], [], []⟩))) = false ∧
    WellFormed (.calibrationDone [PerPair.const ⟨List.replicate 65 [], [], []⟩]) = false := by
  decide +kernel

/-! ### Worked examples of the spec -/

/-- Section 8.3.1: an ALERT from station 3. -/
theorem test_alert_check_byte : crc8 [0b01100011#8, 0b11110000#8] = 0b00010100#8 ∧ crc8 [0b01100011#8] = 0b00101110#8 ∧
    (frameBits 6 3 15 []).length = 29 := by
  decide +kernel

/-- Table 9-1: zones at station edges. -/
def zone (geo : Geometry) (g : GlobalPort) : List GlobalPort := (List.finRange 96).filter (conflicts geo g)

theorem test_zones_at_station_edges :
    [0, 11, 22, 23, 95].map (zone .singleRow) = [[0, 1], [10, 11, 12], [21, 22, 23], [22, 23, 24], [94, 95]] ∧
    [0, 11, 22, 23, 95].map (zone .stacked) =
      [[0, 1, 2], [9, 10, 11, 13], [20, 22, 23, 24], [21, 22, 23, 25], [93, 94, 95]] := by
  decide +kernel

/-- Table 6-4. -/
def exampleTable : Vector Segment 4 := ⟨#[⟨30, 2, true⟩, ⟨850, 3, true⟩, ⟨880, 2, false⟩, ⟨880, 2, false⟩], rfl⟩

/-- Section 6.4.1 and the passive lengths of section 2.8.2. -/
theorem test_walk_examples :
    let d := Setup.default.delay
    [244000, 1244000, 246000, 242000, 250750].map (segmentWalk d exampleTable) = [460, 2376, 464, 457, 473] ∧
    segmentWalk d ⟨#[⟨30, 0, false⟩, ⟨30, 0, false⟩, ⟨30, 0, false⟩, ⟨30, 0, false⟩], rfl⟩ 15000 = 30 ∧
    segmentWalk d ⟨#[⟨0, 0, false⟩, ⟨0, 0, false⟩, ⟨0, 0, false⟩, ⟨0, 0, false⟩], rfl⟩ (oneWayTime 1000 24) = 488 := by
  decide

/-- Section 6.5.1. -/
theorem test_amplitude_and_ratio :
    compensated 6 460 700 = 1170 ∧ ratioOf 1170 1480 = 50 ∧ compensated 6 460 420 = 702 ∧ ratioOf 702 1480 = 30 := by
  decide

def exampleSettings : EchoSettings := ⟨Setup.default.delay, exampleTable, 6, 48, 8, 24, 32⟩

/-- Section 6.8: the echoes b1 to b5, with the listening echoes near Q = 1000. -/
def exampleEchoes : List Echo :=
  (mergeClose exampleSettings 1400 (discardWeak exampleSettings
    ([⟨89, 200⟩, ⟨400, -60⟩, ⟨1000, -300⟩, ⟨1008, -520⟩, ⟨1850, 900⟩].map (weighEcho exampleSettings 22 1400)))).map
    (classifyEcho exampleSettings 1400 [(.A, [⟨1003, 260⟩]), (.C, [⟨995, -420⟩]), (.D, [⟨1010, 500⟩])])

/-- Section 6.8.5. -/
theorem test_one_pair_through_the_pipeline :
    exampleEchoes =
      [⟨32, 209, 9, true, .junction, false, some 0, none⟩, ⟨461, -869, -39, false, .crossShort, false, none, some .C⟩,
       ⟨863, 2035, 64, true, .openEnd, false, none, none⟩] ∧
    (resultOf 1400 exampleEchoes).verdict = .crossShort ∧ (resultOf 1400 exampleEchoes).distance = some 461 ∧
    (resultOf 1400 exampleEchoes).truncated = false := by
  decide

/-! ### States for the tests -/

/-- What a command leaves. -/
def after (c : Instr) (s : State) : State :=
  match exec c s with
  | .next t => t
  | .fault _ => s
  | .refused _ => s

/-- A station in RUN on an idle line, announced, every port OFFLINE. -/
def running : State :=
  { State.reset with
    station := { State.reset.station with phase := .run, announced := true, listen := ⟨false, 0, 0⟩ }
    line := { State.reset.line with condition := .idle, idleCount := 11, assembler := .ready } }

/-- `running` with port 0 changed. -/
def withPort0 (f : Port → Port) : State := running.modPort 0 f

/-- `running` with port 0 in a state of Table 1-1, energy present. -/
def portIn (st : TrainState) : State :=
  withPort0 (fun pt => { pt with train.state := st, front.energy := true })

def atSetup : State := { running with station := { running.station with phase := .setup } }

/-- Port 0 UP at G3, its watch COUNTING. -/
def upState : State :=
  (portIn .up).modPort 0 (fun pt => { pt with train.grade := some .G3, train.role := some .source, watch.condition := .counting })

def withCriteria (c : Criteria) (s : State) : State := { s with setup := { s.setup with criteria := perPort c } }

def toThis : Via := ⟨false, []⟩
def toAll : Via := ⟨true, []⟩

/-! ### Training and the quality watch -/

/-- Section 1.10.1: energy wake, and the settle timer of 4 ms at code 1. -/
theorem test_energy_wake :
    let s := (portIn .dormant).modPort 0 (fun pt => { pt with timers.wake := ⟨true, 2000, 2000⟩ })
    ((after (.energyWake 0) s).port 0).train.state = .settling ∧
      ((after (.energyWake 0) s).port 0).timers.settle = ⟨true, 0, 4000⟩ := by
  decide

/-- Section 1.10.2, steps 3 and 4: local seed 41 against 960 gives FOLLOW; a G3 failure goes to a 128 ms backoff. -/
theorem test_role_and_first_backoff :
    settleRole .source 41 ⟨GradeSet.full, .source, 960, true⟩ = some .follow ∧
    settleRole .source 300 ⟨GradeSet.full, .source, 300, true⟩ = none ∧
    (let t := after (.resolvingLimit 0) ((portIn .resolving).modPort 0 (fun pt => { pt with train.grade := some .G3 }))
     (t.port 0).timers.backoff.limit = 128000 ∧ (t.port 0).train.fourPair = 1 ∧
       (t.port 0).train.lastFailure = some .resolveTimeout) := by
  decide

/-- Section 2.8.1: skews 6, 12, 0 and 34; with 1131 on D the skew is 41 and the attempt fails. -/
theorem test_skew_of_the_example :
    let s := (portIn .resolving).modPort 0 (fun pt =>
      { pt with
        train.grade := some .G3, train.role := some .source
        res := { pt.res with
          probing := true, probesOut := ⟨false, false, false, true⟩
          qp := ⟨some 1096, some 1102, some 1090, none⟩ } })
    ((after (.probeReturn 0 .D 1124) s).port 0).res.skew = ⟨some 6, some 12, some 0, some 34⟩ ∧
      ((after (.probeReturn 0 .D 1124) s).port 0).res.checksPassed = true ∧
      ((after (.probeReturn 0 .D 1131) s).port 0).train.lastFailure = some .skewLimit := by
  decide

/-- R49 at the default threshold of 24, and R58: the drop settle of 16 ms at code 2. -/
theorem test_symbol_error_threshold :
    let s := upState.modPort 0 (fun pt => { pt with watch.symbol := 22 })
    ((after (.symbolError 0) s).port 0).watch.symbol = 23 ∧
      ((after (.symbolError 0) (after (.symbolError 0) s)).port 0).train.state = .held ∧
      ((after (.symbolError 0) (after (.symbolError 0) s)).port 0).watch.dropSettle.limit = 16000 := by
  decide

/-- Section 2.8.3: the third four-pair failure makes the DOWNSHIFT request for C and D, which channel 1 picks up: 32 shots, a
claim of 9 units. -/
theorem test_third_failure_measures_c_and_d :
    let t := after (.qualifyingLimit 0) ((portIn .qualifying).modPort 0 (fun pt =>
      { pt with train.grade := some .G3, train.consecutive := 2, train.fourPair := 2 }))
    (t.port 0).train.state = .held ∧ (t.port 0).train.downshiftCheck = true ∧
      (t.chan 1).meas = some ⟨0, 0, 32, 9⟩ ∧ t.queue.map Entry.origin = [.downshift] := by
  decide

/-! ### Requests -/

/-- Section 4.7.1: the merge of a waiting entry, and the answers. -/
def mergeQueue : State :=
  { withPort0 id with
    line := { running.line with duplicate := true }
    queue := [⟨5, PairSet.full, .short, .n2, false, .normal, .console, none, 9, some 0⟩,
      ⟨2, ⟨true, true, false, false⟩, .medium, .n4, false, .normal, .console, none, 11, none⟩,
      ⟨7, PairSet.full, .long, .n4, false, .background, .sweep, some 5, 12, none⟩]
    arrival := 13 }

theorem test_merge_of_the_example :
    (after (.measure toThis 2 0b0100 2 2 1) mergeQueue).queue[1]? =
      some ⟨2, ⟨true, true, true, false⟩, .long, .n4, true, .normal, .console, none, 11, none⟩ ∧
    (after (.measure toThis 5 0 0 2 0) mergeQueue).line.list.map Frame.payload = [[1, 3, 9]] ∧
    (after (.measure toThis 9 15 0 8 0) mergeQueue).queue.map Entry.target = [5, 2, 9, 7] := by
  decide

/-- R187: an attenuation coefficient beyond its range is stored at 63 and the answer says adjusted. -/
theorem test_setup_clamps :
    (after (.setup toThis 7 [200]) atSetup).setup.alpha = 63 ∧
    (after (.setup toThis 7 [200]) atSetup).line.list.map Frame.payload = [[6, 1]] ∧
    (after (.setup toThis 9 [0, 7]) atSetup).setup.busy = 8 := by
  decide

/-- R188: LOCK by broadcast enters RUN. -/
theorem test_lock_enters_run :
    (after (.lock toAll) atSetup).station.phase = .run ∧ (after (.lock toAll) atSetup).station.locked = true := by
  decide

/-- Table 6-3, with a quiet quarter-tick after it. -/
theorem test_detection_table :
    scanEchoes 48 [10, 52, 70, 31, 25, 20, -30, 60, 55, -51, 0] 500 none = [⟨501, 70⟩, ⟨507, 60⟩, ⟨509, -51⟩] := by
  decide

/-- Tables 1-3 and 5-3. -/
theorem test_backoffs_and_durations :
    [1, 2, 3, 4, 5, 15].map backoffTime = [128000, 256000, 512000, 1024000, 2048000, 2048000] ∧
    ([(⟨true, false, false, false⟩, .n1), (⟨true, true, false, false⟩, .n4), (PairSet.full, .n4), (PairSet.full, .n8),
        (PairSet.full, .n16)] : List (PairSet × Averaging)).map (fun x =>
      ((pickup 1 ⟨0, x.1, .long, x.2, false, .normal, .console, none, 0, none⟩ { portIn .backoff with
        queue := [⟨0, x.1, .long, x.2, false, .normal, .console, none, 0, none⟩] }).chan 1).meas.map
        (fun m => (m.planned, m.duration))) =
      [some (4, 2), some (32, 9), some (64, 17), some (128, 33), some (256, 65)] := by
  decide +kernel

/-- Section 9.10.1: the expiry of (1,41) is 2588 µs after its CLAIM; section 3.10.2: a neighbour's claim shadows an UP port and
empties its count. -/
theorem test_claim_expiry_and_shadow :
    (let s := { running with station := { running.station with geometry := .stacked } }
     (after (.claimTaken 1 41 22 2 17) s).view.map ViewEntry.expiry = [2588]) ∧
    (let s := { upState.modPort 0 (fun pt => { pt with watch.symbol := 17 }) with
       station := { running.station with geometry := .stacked } }
     let t := after (.claimTaken 1 1 2 1 9) s
     (t.port 0).train.shadowed = true ∧ (t.port 0).watch.condition = .suspended ∧ (t.port 0).watch.symbol = 0 ∧
       (t.port 2).train.shadowed = false) := by
  decide +kernel

/-! ### Witnesses: states and operands that meet the hypotheses of the statements, clause by clause -/

theorem holds_nothing {s : State} {p : PortId} (h : ∀ ch, (s.chan ch).meas = none) :
    ∀ ch m, (s.chan ch).meas = some m → m.port ≠ p :=
  fun ch m e => absurd ((h ch).symm.trans e) (fun k => by cases k)

/-- The state runs one command and goes on. -/
def soon (c : Instr) (s : State) : State := { s with pending := [c] }

theorem soon_steps (c : Instr) (s : State) (h : ∃ t, exec c { s with pending := [] } = .next t) :
    ∃ t, step (soon c s) = .next t := h

/-- Both channels measure: ports 0 and 5, targets that do not conflict; port 0's entry and claim under way. -/
def measuring : State :=
  { (withPort0 (fun pt => { pt with
        train.state := .held, train.holds := ⟨true, false, false⟩, front.energy := true })).modPort 5 (fun pt =>
        { pt with train.state := .held, train.holds := ⟨true, false, false⟩ }) with
    queue := [⟨0, ⟨true, false, false, false⟩, .short, .n1, false, .normal, .console, none, 0, some 0⟩,
      ⟨5, ⟨true, false, false, false⟩, .short, .n1, false, .normal, .console, none, 1, some 1⟩]
    arrival := 2
    channels := ⟨#[{ Channel.fresh with
        phase := .bursting, meas := some ⟨0, 0, 4, 2⟩, sequence := some 7, stage := .gap
        claim := some ⟨1, .active, 0, .normal, 2, ⟨false, 0, 0⟩, ⟨false, 0, 0⟩⟩ },
      { Channel.fresh with
        phase := .claiming, meas := some ⟨5, 5, 4, 2⟩
        claim := some ⟨2, .queued, 5, .normal, 2, ⟨false, 0, 0⟩, ⟨false, 0, 0⟩⟩ }], rfl⟩
    line := { running.line with
      list := [⟨.rejoin, [0], none, false⟩, ⟨.claim, [2, 5, 1, 2], some 1, false⟩, ⟨.report, [1, 0], none, false⟩,
        ⟨.alert, [], none, false⟩] }
    view := [⟨1, 3, false, 20, .normal, 2, 500, 1628⟩, ⟨1, 4, true, 30, .normal, 2, 500, 1628⟩] }

/-- The entry channel 0 holds in `measuring`. -/
def heldNow : Entry := ⟨0, ⟨true, false, false, false⟩, .short, .n1, false, .normal, .console, none, 0, some 0⟩

/-- The claim of channel 0 in `measuring`. -/
def activeNow : LocalClaim := ⟨1, .active, 0, .normal, 2, ⟨false, 0, 0⟩, ⟨false, 0, 0⟩⟩

/-- A foreign entry that conflicts with global port 0. -/
def neighbourEntry : ViewEntry := ⟨1, 9, true, 1, .urgent, 2, 500, 1628⟩

/-- `measuring` on a free line, channel 0 in the recovery of a shot, `elapsed` µs into its period. -/
def periodEnding (elapsed launched : Nat) : State :=
  { measuring.modChan 0 (fun c => { c with stage := .recovery, launched := launched, shot := ⟨true, elapsed, 16⟩ }) with
    line := running.line }

/-- Channel 0 CLAIMING on a free line, its claim in HOLDOFF with this timer. -/
def heldOff (k : Timer) : State :=
  { running.modChan 0 (fun c => { c with
      phase := .claiming, meas := some ⟨0, 0, 4, 2⟩, claim := some { activeNow with state := .holdoff, holdoff := k } }) with
    queue := [heldNow] }

theorem witness_IdleStep : State.reset.pending = [] ∧ due State.reset = none ∧
    due { State.reset with station := { State.reset.station with listen := ⟨true, 20000, 20000⟩ } } = some .listenTimerExpiry ∧
    due { (portIn .settling).modPort 0 (fun pt => { pt with timers.settle := ⟨true, 4000, 4000⟩ }) with
      now := 600, view := [⟨1, 3, false, 20, .normal, 2, 500, 1628⟩] } = some (.viewEntryActive 1 3) ∧
    (∀ st ∈ [(15 : Nat), 14], ∀ n ∈ [(3 : Nat), 4], let s := periodEnding st n
     due s = none ∧ s.pending = [] ∧ (s.chan 0).phase = .bursting ∧ (s.chan 0).stage = .recovery ∧
       (s.chan 0).meas = some ⟨0, 0, 4, 2⟩ ∧ (s.chan 0).launched = n ∧ (s.chan 0).shot = ⟨true, st, 16⟩) ∧
    (let s := { State.reset with station := { State.reset.station with
       phase := .calibrating, listen := Timer.off, calibrating := ⟨true, 3, 147456⟩ } }
     due s = none ∧ s.station.phase = .calibrating) ∧
    (∀ k ∈ [(⟨false, 0, 0⟩ : Timer), ⟨true, 499, 500⟩],
      due (heldOff k) = none ∧ (heldOff k).pending = [] ∧
        (heldOff k).chan 0 = { Channel.fresh with
          phase := .claiming, meas := some ⟨0, 0, 4, 2⟩
          claim := some { activeNow with state := .holdoff, holdoff := k } }) ∧
    (let k : Timer := ⟨true, 19999, 20000⟩
     k.running = true ∧ k.elapsed < k.limit) := by
  decide +kernel

/-- R147, R157: the hold-off of 500 µs counts from the end bit, the bit time after the CLAIM's departure. -/
theorem test_hold_off_starts_at_the_end_bit :
    ((advance (heldOff Timer.off)).chan 0).claim.map LocalClaim.holdoff = some ⟨true, 0, 500⟩ ∧
    ((advance (heldOff ⟨true, 499, 500⟩)).chan 0).claim.map LocalClaim.holdoff = some ⟨true, 500, 500⟩ ∧
    due (advance (heldOff ⟨true, 499, 500⟩)) = some (.holdoffEnd 0) := by
  decide +kernel

/-- The tick at the end of a shot's recovery begins the next listen gap (R91), but for the last shot. -/
theorem test_tick_at_a_periods_end :
    ((advance (periodEnding 15 3)).chan 0).stage = .gap ∧ ((advance (periodEnding 15 3)).chan 0).shot = ⟨true, 0, 16⟩ ∧
    ((advance (periodEnding 15 4)).chan 0).stage = .recovery ∧ ((advance (periodEnding 15 4)).chan 0).shot = ⟨true, 16, 16⟩ := by
  decide +kernel

theorem witness_invariants : QueueOk measuring.queue ∧ ViewOk measuring.view ∧ HoldsOk measuring ∧
    (∃ t, step (soon .lineIdle measuring) = .next t) := by
  refine ⟨?_, ?_, ?_, _, rfl⟩
  · unfold QueueOk
    decide
  · unfold ViewOk
    decide
  · unfold HoldsOk PortHoldOk
    decide

/-- `measuring` while its REJOIN is on the line. -/
def rejoining : State :=
  { measuring with line := { measuring.line with
    condition := .busy, idleCount := 0, assembler := .receiving
    onLine := (some ⟨⟨.rejoin, [0], none, false⟩, frameBits 0 0 15 [0], 1⟩) } }

theorem witness_FramesOk : FramesOk measuring ∧ FramesOk rejoining ∧ ∃ t, step (soon (.frameStart) measuring) = .next t := by
  refine ⟨⟨⟨by decide, by decide, by decide, by decide, ?_⟩, by decide, by decide, by decide, by decide, by decide, ?_, by decide, ?_⟩,
    ⟨⟨by decide, by decide, by decide, by decide, ?_⟩, by decide, by decide, by decide, by decide, by decide, ?_, by decide, ?_⟩, _, rfl⟩
  · intro o h; cases h
  · intro ch
    refine ⟨by revert ch; decide, fun h => ?_⟩
    obtain rfl : ch = 1 := by revert ch; decide
    exact ⟨rfl, _, rfl, rfl⟩
  · intro o h; cases h
  · intro o h; cases h; decide
  · intro ch
    refine ⟨by revert ch; decide, fun h => ?_⟩
    obtain rfl : ch = 1 := by revert ch; decide
    exact ⟨rfl, _, rfl, rfl⟩
  · intro o h; cases h; decide

theorem witness_TargetsApart : TargetsApart measuring := by
  intro m n hm hn
  cases hm
  cases hn
  decide

theorem witness_SetupOk : SetupOk Setup.default := by
  constructor <;> try decide
  unfold TableOk
  decide

theorem witness_SetupAndLock :
    (after (.setup toThis 7 [0]) atSetup).setup ≠ atSetup.setup ∧
    exec (.setup toThis 7 [0]) atSetup = .next (after (.setup toThis 7 [0]) atSetup) ∧
    (let s := { running with station := { running.station with locked := true } }
     exec (.powerOnReset Straps.atReset) s = .next (after (.powerOnReset Straps.atReset) s) ∧ s.station.locked = true ∧
       (after (.powerOnReset Straps.atReset) s).station.locked = false) := by
  refine ⟨?_, rfl, rfl, by decide, by decide⟩
  intro h
  exact absurd (congrArg Setup.alpha h) (by decide)

theorem witness_NoShot : exec (.launchTrigger 0) measuring = .next (after (.launchTrigger 0) measuring) ∧
    (measuring.chan 0).launched < ((after (.launchTrigger 0) measuring).chan 0).launched :=
  ⟨rfl, by decide⟩

theorem witness_LeavingUp : exec (.energyDisappears 0) upState = .next (after (.energyDisappears 0) upState) ∧
    upState.station.phase = .run ∧ (upState.port 0).train.state = .up ∧
    ((after (.energyDisappears 0) upState).port 0).train.state ≠ .up ∧
    (after (.energyDisappears 0) upState).station.phase = .run :=
  ⟨rfl, by decide, by decide, by decide, by decide⟩

theorem requestReady_running : RequestReady running ∧ RequestReady atSetup ∧ RequestReady upState ∧ FrameReady running := by
  unfold RequestReady FrameReady
  decide

theorem witness_StationLevelResets : RequestReady running ∧ toThis.broadcast = false := ⟨requestReady_running.1, rfl⟩

theorem witness_EnergyAtAPort :
    (∀ st ∈ [TrainState.dormant, .up, .settling],
      ((withPort0 (fun pt => { pt with train.state := st })).port 0).front.energy = false ∧
      ((withPort0 (fun pt => { pt with train.state := st })).port 0).train.state = st ∧
      ((portIn st).port 0).front.energy = true ∧ ((portIn st).port 0).train.state = st) ∧
    ((withCriteria ⟨true, false, false, false, false⟩ upState).criteria 0).energyLoss = false ∧
    (let s := (portIn .dormant).modPort 0 (fun pt => { pt with timers.wake := ⟨true, 2000, 2000⟩ })
     (s.port 0).train.state = .dormant ∧ (s.port 0).front.energy = true ∧ (s.port 0).timers.wake.running = true) := by
  decide

/-- Port 0 UP with every criterion enabled and the counts one below the default thresholds, or with fewer. -/
def watched (symbol idle margin : Nat) : State :=
  withCriteria ⟨true, true, true, true, true⟩ (upState.modPort 0 (fun pt =>
    { pt with watch.symbol := symbol, watch.idle := idle, watch.margin := margin, watch.silence := ⟨true, 0, 100000⟩ }))

theorem witness_WatchEvents :
    (let s := watched 22 14 10
     (s.port 0).train.state = .up ∧ (s.port 0).watch.condition = .counting ∧ (s.criteria 0).symbolErrors = true ∧
       (s.criteria 0).idleErrors = true ∧ (s.criteria 0).marginDips = true ∧ (s.port 0).watch.symbol + 1 < s.setup.thresholdE ∧
       (s.port 0).watch.idle + 1 < s.setup.thresholdI ∧ (s.port 0).watch.margin + 1 < s.setup.thresholdM) ∧
    (let s := withCriteria ⟨false, false, true, false, false⟩ upState
     (s.port 0).train.state = .up ∧ (s.criteria 0).symbolErrors = false ∧ (s.criteria 0).idleErrors = false ∧
       (s.criteria 0).symbolErrors = false ∧ (s.criteria 0).energyLoss = false) := by
  decide

theorem witness_LossOfLock :
    (let s := watched 0 0 0
     (s.port 0).train.state = .up ∧ (s.criteria 0).lockLoss = true ∧ (s.criteria 0).symbolErrors = true) ∧
    (upState.port 0).train.state = .up ∧ (upState.criteria 0).lockLoss = false := by
  decide

theorem witness_QualityCriteria :
    let s := watched 23 15 11
    (s.port 0).train.state = .up ∧ (s.port 0).watch.condition = .counting ∧ (s.criteria 0).symbolErrors = true ∧
      s.setup.thresholdE ≤ (s.port 0).watch.symbol + 1 ∧ (s.criteria 0).idleErrors = true ∧
      s.setup.thresholdI ≤ (s.port 0).watch.idle + 1 ∧ (s.criteria 0).marginDips = true ∧
      s.setup.thresholdM ≤ (s.port 0).watch.margin + 1 ∧ (s.port 0).front.energy = true ∧ (s.criteria 0).energyLoss = true ∧
      (s.port 0).watch.silence.running = true := by
  decide

/-- Port 0 UP and shadowed, its watch SUSPENDED. -/
def shadedUp : State := upState.modPort 0 (fun pt => { pt with train.shadowed := true, watch.condition := .suspended })

theorem witness_Disturbances : ((portIn .qualifying).port 0).train.state = .qualifying ∧
    (∀ s ∈ [upState, portIn .qualifying, portIn .backoff], ∃ v ∈ ({ s with view := [neighbourEntry] } : State).view,
      v.target ≠ globalOf s.station.number 0 ∧ conflicts s.station.geometry v.target (globalOf s.station.number 0) = true ∧
        (s.port 0).train.shadowed = false) ∧
    ((upState.port 0).train.state = .up ∧ (upState.port 0).watch.condition = .counting) ∧
    ((measuring.chan 0).claim = some activeNow ∧ activeNow.state = .active ∧ activeNow.target ≠ globalOf 0 1 ∧
      conflicts measuring.station.geometry activeNow.target (globalOf 0 1) = true ∧ (measuring.port 1).train.shadowed = false ∧
      (measuring.port 1).train.state ≠ .qualifying ∧ (measuring.port 1).train.state ≠ .up) ∧
    (shadedUp.view = [] ∧ (∀ ch, (shadedUp.chan ch).claim = none) ∧ (shadedUp.port 0).train.shadowed = true ∧
      (shadedUp.port 0).train.state = .up ∧ (shadedUp.port 0).watch.condition = .suspended) ∧
    (∀ s ∈ [(portIn .qualifying).modPort 0 (fun pt => { pt with train.shadowed := true }),
        (portIn .backoff).modPort 0 (fun pt => { pt with train.shadowed := true })],
      s.view = [] ∧ (∀ ch, (s.chan ch).claim = none) ∧ (s.port 0).train.shadowed = true) := by
  refine ⟨by decide, fun s hs => ⟨neighbourEntry, List.mem_singleton.mpr rfl, ?_⟩, by decide, by decide, by decide, by decide⟩
  revert s
  decide

/-- Port 0 HELD with the drop settle running, under these hold reasons. -/
def settlingDrop (h : HoldReasons) : State :=
  (portIn .held).modPort 0 (fun pt => { pt with train.holds := h, watch.dropSettle := ⟨true, 16000, 16000⟩ })

def waitingEntry (p : PortId) (pri : Priority) (o : Origin) : Entry :=
  ⟨p, PairSet.full, .short, .n1, false, pri, o, none, 0, none⟩

/-- Sixteen waiting NORMAL entries, for the ports 1 to 11 and again 1 to 5 (the queue's own invariant is not a premise). -/
def fullQueue : List Entry :=
  ([1, 2, 3, 4, 5, 6, 7, 8, 9, 10, 11, 1, 2, 3, 4, 5] : List PortId).map (fun p => waitingEntry p .normal .console)

/-- A full queue whose youngest waiting BACKGROUND entry carries a tag. -/
def crowdedBy (tag : Option Byte) : List Entry :=
  fullQueue.drop 2 ++ [{ waitingEntry 1 .background .sweep with stamp := 4 }, { waitingEntry 2 .background .sweep with tag := tag, stamp := 9 }]

/-- That youngest entry. -/
def youngest (tag : Option Byte) : Entry := { waitingEntry 2 .background .sweep with tag := tag, stamp := 9 }

theorem witness_DropSettleExpiry :
    (let s := settlingDrop ⟨true, true, false⟩
     (s.port 0).watch.dropSettle.running = true ∧ (s.port 0).train.state = .held ∧ (s.port 0).train.holds.channel = true) ∧
    (let s := settlingDrop ⟨false, true, false⟩
     (s.port 0).watch.dropSettle.running = true ∧ (s.port 0).train.holds.channel = false ∧ (∀ e ∈ s.queue, e.target ≠ 0) ∧
       s.queue.length < 16) ∧
    (let s := { settlingDrop ⟨false, true, false⟩ with queue := [waitingEntry 0 .normal .console] }
     (s.port 0).train.holds.channel = false ∧ waitingFor 0 s = some (waitingEntry 0 .normal .console)) ∧
    (∀ tag ∈ [none, some (0 : Byte)], let s := { settlingDrop ⟨false, true, false⟩ with queue := crowdedBy tag }
     (s.port 0).train.holds.channel = false ∧ (∀ e ∈ s.queue, e.target ≠ 0) ∧ 16 ≤ s.queue.length ∧ youngest tag ∈ s.queue ∧
       (youngest tag).holder = none ∧ (youngest tag).priority = .background ∧
       (∀ x ∈ s.queue, x.holder = none → x.priority = .background → x = youngest tag ∨ x.stamp < (youngest tag).stamp)) ∧
    (let s := { settlingDrop ⟨false, true, false⟩ with queue := fullQueue }
     (s.port 0).train.state = .held ∧ (s.port 0).train.holds = ⟨false, true, false⟩ ∧ (∀ e ∈ s.queue, e.target ≠ 0) ∧
       16 ≤ s.queue.length ∧ (∀ e ∈ s.queue, e.holder = none → e.priority ≠ .background)) := by
  decide +kernel

theorem witness_SettleAndBackoff :
    (let s := withPort0 (fun pt => { pt with train.state := .settling })
     (s.port 0).train.state = .settling ∧ (s.port 0).front.energy = false) ∧
    (let s := (portIn .settling).modPort 0 (fun pt => { pt with train.forced := some .G1 })
     (s.port 0).train.state = .settling ∧ (s.port 0).front.energy = true ∧ (s.port 0).train.forced = some .G1) ∧
    (let s := portIn .settling
     (s.port 0).train.state = .settling ∧ (s.port 0).front.energy = true ∧ (s.port 0).train.forced = none) ∧
    ((portIn .backoff).port 0).train.state = .backoff := by
  decide

/-- Port 0 in RESOLVING at a grade, SOURCE, its resolution changed by f. -/
def resolving (g : Grade) (f : Resolution → Resolution) : State :=
  (portIn .resolving).modPort 0 (fun pt => { pt with
    train.grade := some g, train.role := some .source, res := f pt.res })

theorem witness_Repetitions :
    ((portIn .offering).port 0).train.state = .offering ∧
    (let s := resolving .G4 (fun r => { r with probing := true })
     (s.port 0).train.state = .resolving ∧ (s.port 0).res.listening = false ∧ (s.port 0).train.grade = some .G4 ∧
       (s.port 0).res.probing = true) := by
  decide

theorem witness_Alternation :
    (let s := (portIn .offering).modPort 0 (fun pt => { pt with timers.alternation := ⟨true, 0, 50000⟩ })
     (s.port 0).train.state = .offering ∧ (s.port 0).train.pageHeard = false ∧ (s.port 0).timers.alternation.running = true ∧
       (s.port 0).front.g2Stream = false) ∧
    (let s := (portIn .offering).modPort 0 (fun pt => { pt with front.g2Stream := true, timers.legacy := ⟨true, 20000, 20000⟩ })
     (s.port 0).train.state = .offering ∧ (s.port 0).train.pageHeard = false ∧ (s.port 0).front.g2Stream = true ∧
       (s.port 0).timers.legacy.running = true ∧ (currentOffer (s.port 0).train).g2 = true) ∧
    (let s := (portIn .offering).modPort 0 (fun pt => { pt with
       timers.legacy := ⟨true, 20000, 20000⟩, train.offerMask := ⟨true, false, true, true⟩ })
     (s.port 0).train.pageHeard = false ∧ (s.port 0).timers.legacy.running = true ∧
       (currentOffer (s.port 0).train).g2 = false) ∧
    ((portIn .dormant).port 0).train.state ≠ .offering ∧
    (((portIn .offering).modPort 0 (fun pt => { pt with train.pageHeard := true })).port 0).train.pageHeard = true := by
  decide

/-- R11: the stream that woke the port already stands as OFFERING begins, and its 20 ms run from there. -/
theorem test_stream_that_woke_the_port :
    let s := (portIn .settling).modPort 0 (fun pt => { pt with front.g2Stream := true, timers.settle := ⟨true, 4000, 4000⟩ })
    ((after (.settleExpiry 0) s).port 0).timers.legacy = ⟨true, 0, 20000⟩ ∧
      ((after (.settleExpiry 0) s).port 0).timers.alternation.running = false := by
  decide

/-- Port 0 in OFFERING after hearings of a partner page. -/
def exchanging (page : OfferPage) (hearing : Nat) (accepted : Bool) (tie : Nat) (seed : BitVec 10) : State :=
  (portIn .offering).modPort 0 (fun pt => { pt with train := { pt.train with
    partner := some page, pageHeard := true, hearing := hearing, accepted := accepted, tieCount := tie, seed := seed } })

def page203 (ack : Bool) : OfferPage := ⟨⟨true, true, true, false⟩, .either, 203, ack⟩

theorem witness_OfferPageHearings :
    ((portIn .offering).port 0).train.partner = none ∧ ((portIn .offering).port 0).train.state = .offering ∧
    (let s := exchanging (page203 false) 2 false 0 517
     (s.port 0).train.partner = some { page203 false with ack := false } ∧ (page203 false).ack = false) ∧
    (let s := exchanging (page203 false) 1 false 0 517
     (s.port 0).train.partner = some { page203 true with ack := false } ∧ (s.port 0).train.accepted = false ∧
       (s.port 0).train.hearing < 2) ∧
    (page203 false).seed ≠ ({ page203 false with seed := 204 } : OfferPage).seed := by
  decide

theorem witness_CompletedExchange :
    (let s := exchanging (page203 false) 2 false 0 517
     (s.port 0).train.state = .offering ∧ (s.port 0).train.partner = some { page203 true with ack := false } ∧
       2 ≤ (s.port 0).train.hearing ∧ (page203 true).ack = true ∧
       highestGrade ((currentOffer (s.port 0).train).inter (page203 true).grades) = some .G3 ∧
       settleRole (s.port 0).train.rolePref (s.port 0).train.seed (page203 true) = some .source) ∧
    (let s := (exchanging (page203 false) 2 false 0 517).modPort 0 (fun pt => { pt with
       train.offerMask := ⟨false, false, false, true⟩ })
     highestGrade ((currentOffer (s.port 0).train).inter (page203 true).grades) = none) ∧
    (let s := exchanging (page203 false) 2 false 5 203
     settleRole (s.port 0).train.rolePref (s.port 0).train.seed (page203 true) = none ∧ (s.port 0).train.tieCount < 6) ∧
    (let s := exchanging (page203 false) 2 false 6 203
     settleRole (s.port 0).train.rolePref (s.port 0).train.seed (page203 true) = none ∧ 6 ≤ (s.port 0).train.tieCount) := by
  decide

theorem witness_TrainingLimits :
    (let s := resolving .G2 id
     (s.port 0).train.state = .resolving ∧ NoDownshiftTest 0 s ∧ (s.port 0).res.listening = false ∧
       (s.port 0).res.identified = false ∧ (s.port 0).train.grade = some .G2) ∧
    (let s := resolving .G2 (fun r => { r with listening := true })
     (s.port 0).train.state = .resolving ∧ (s.port 0).res.listening = true ∧ NoDownshiftTest 0 s) ∧
    (let s := (portIn .qualifying).modPort 0 (fun pt => { pt with train.grade := some .G3, train.fourPair := 1 })
     (s.port 0).train.state = .qualifying ∧ NoDownshiftTest 0 s) := by
  unfold NoDownshiftTest
  decide

/-- Port 0 about to fail for the third time at G3, with these health fields of C and D. -/
def thirdFailure (c d : Health) : State :=
  (portIn .qualifying).modPort 0 (fun pt => { pt with
    train.grade := some .G3, train.consecutive := 2, train.fourPair := 2
    train.health := ⟨.unknown, .unknown, c, d⟩ })

theorem witness_FirstDownshiftTest :
    (let s := thirdFailure .sound .faulty
     (s.port 0).train.state = .qualifying ∧ (s.port 0).train.grade = some .G3 ∧ s.setup.downshiftEnable = true ∧
       min 15 ((s.port 0).train.fourPair + 1) = s.setup.downshiftAttempts ∧ (s.port 0).train.health.d = .faulty) ∧
    ((thirdFailure .sound .sound).port 0).train.health.c = .sound ∧
    ((thirdFailure .sound .sound).port 0).train.health.d = .sound ∧
    (let s := thirdFailure .unknown .sound
     (s.port 0).train.health.c ≠ .faulty ∧ (s.port 0).train.health.d ≠ .faulty ∧ (s.port 0).train.health.c = .unknown ∧
       (∀ e ∈ s.queue, e.target ≠ 0) ∧ s.queue.length < 16) ∧
    (let s := { thirdFailure .unknown .sound with queue := [waitingEntry 0 .background .sweep] }
     waitingFor 0 s = some (waitingEntry 0 .background .sweep)) ∧
    (∀ tag ∈ [none, some (0 : Byte)], let s := { thirdFailure .unknown .sound with queue := crowdedBy tag }
     (∀ e ∈ s.queue, e.target ≠ 0) ∧ 16 ≤ s.queue.length ∧ youngest tag ∈ s.queue ∧ (youngest tag).holder = none ∧
       (youngest tag).priority = .background ∧
       (∀ x ∈ s.queue, x.holder = none → x.priority = .background → x = youngest tag ∨ x.stamp < (youngest tag).stamp)) ∧
    (let s := { thirdFailure .unknown .sound with queue := fullQueue }
     (∀ e ∈ s.queue, e.target ≠ 0) ∧ 16 ≤ s.queue.length ∧
       (∀ e ∈ s.queue, e.holder = none → e.priority ≠ .background)) ∧
    (let s := (resolving .G4 id).modPort 0 (fun pt => { pt with train.consecutive := 7, train.fourPair := 2 })
     (s.port 0).train.state = .resolving ∧ (s.port 0).train.grade = some .G4 ∧ (s.port 0).res.listening = false ∧
       (s.port 0).res.identified = false ∧ min 15 ((s.port 0).train.fourPair + 1) = s.setup.downshiftAttempts ∧
       8 ≤ min 15 ((s.port 0).train.consecutive + 1)) ∧
    (let s := resolving .G2 (fun r => { r with listening := true })
     (s.port 0).train.state = .resolving ∧ (s.port 0).res.listening = true) := by
  refine ⟨by decide, by decide, by decide, by decide, by decide, by decide +kernel, by decide, by decide, by decide⟩

theorem witness_IdentificationHearings :
    (let s := resolving .G3 (fun r => { r with identified := true })
     (s.port 0).train.state = .resolving ∧ (s.port 0).res.listening = false ∧ (s.port 0).train.grade = some .G3 ∧
       (s.port 0).res.identified = true) ∧
    (fourPairGrade .G2 = false ∧ ((resolving .G2 id).port 0).train.grade = some .G2) ∧
    (let s := resolving .G1 id
     (s.port 0).train.state = .resolving ∧ (s.port 0).res.listening = false ∧ (s.port 0).res.identified = false ∧
       (s.port 0).train.grade = some .G1 ∧ (s.port 0).res.ident.get .B = none) ∧
    (let s := resolving .G3 (fun r => { r with ident := ⟨some ⟨.B, false, 1⟩, some ⟨.A, false, 2⟩, none, none⟩ })
     (s.port 0).train.grade = some .G3 ∧ (s.port 0).res.ident.get .A = some ⟨.B, false, 1⟩ ∧
       (s.port 0).res.ident.get .B = some ⟨.A, false, 2⟩ ∧ identifiedRecord ((s.port 0).res.ident.get .D) = false) := by
  decide

theorem witness_CompletedIdentification :
    (∀ (x : Pair × Pair × Bool) (r : PerPair (Option IdRecord) × Pair × Pair),
        (x, r) ∈ [((Pair.B, Pair.A, true), (⟨some ⟨.B, false, 2⟩, some ⟨.A, true, 1⟩, none, none⟩, Pair.B, Pair.A)),
          ((.A, .A, false), (⟨some ⟨.A, false, 1⟩, some ⟨.B, true, 2⟩, none, none⟩, .A, .B)),
          ((.B, .A, true), (⟨some ⟨.A, false, 2⟩, some ⟨.A, true, 1⟩, none, none⟩, .A, .A))] →
      let s := resolving .G2 (fun q => { q with ident := r.1 })
      (s.port 0).train.state = .resolving ∧ (s.port 0).res.listening = false ∧ (s.port 0).res.identified = false ∧
        (s.port 0).train.grade = some .G2 ∧ (s.port 0).res.ident.get x.1 = some ⟨x.2.1, x.2.2, 1⟩ ∧ (x.1 = .A ∨ x.1 = .B) ∧
        (s.port 0).res.ident.set x.1 (some ⟨x.2.1, x.2.2, 2⟩) =
          ⟨some ⟨r.2.1, false, 2⟩, some ⟨r.2.2, true, 2⟩, none, none⟩) ∧
    (∀ (x : Pair × Pair × Bool) (r : PerPair (Option IdRecord) × Pair × Pair × Pair × Pair),
        (x, r) ∈ [((Pair.D, Pair.D, true), (⟨some ⟨.A, false, 2⟩, some ⟨.B, false, 2⟩, some ⟨.C, false, 2⟩, some ⟨.D, true, 1⟩⟩,
            Pair.A, Pair.B, Pair.C, Pair.D)),
          ((.C, .C, false), (⟨some ⟨.A, false, 2⟩, some ⟨.B, false, 2⟩, some ⟨.C, false, 1⟩, some ⟨.C, true, 2⟩⟩, .A, .B, .C, .C)),
          ((.A, .B, false), (⟨some ⟨.B, false, 1⟩, some ⟨.B, false, 2⟩, some ⟨.C, false, 2⟩, some ⟨.D, true, 2⟩⟩, .B, .B, .C, .D))] →
      let s := resolving .G4 (fun q => { q with ident := r.1 })
      (s.port 0).train.grade = some .G4 ∧ NoDownshiftTest 0 s ∧ (s.port 0).res.ident.get x.1 = some ⟨x.2.1, x.2.2, 1⟩ ∧
        (s.port 0).res.ident.set x.1 (some ⟨x.2.1, x.2.2, 2⟩) =
          ⟨some ⟨r.2.1, false, 2⟩, some ⟨r.2.2.1, false, 2⟩, some ⟨r.2.2.2.1, false, 2⟩, some ⟨r.2.2.2.2, true, 2⟩⟩) := by
  unfold NoDownshiftTest
  constructor
  all_goals
    intro x r h
    simp only [List.mem_cons, List.not_mem_nil, or_false, Prod.mk.injEq] at h
    rcases h with ⟨rfl, rfl⟩ | ⟨rfl, rfl⟩ | ⟨rfl, rfl⟩ <;> decide

/-- R33: the marker that the partner sent before the map was complete lets probing start in the step that completes it. -/
theorem test_probing_starts_with_the_map :
    let s := resolving .G4 (fun r => { r with
      partnerIdentified := true
      ident := ⟨some ⟨.A, false, 2⟩, some ⟨.B, false, 2⟩, some ⟨.C, false, 2⟩, some ⟨.D, true, 1⟩⟩ })
    let t := after (.identificationHearing 0 .D .D true) s
    (t.port 0).res.probing = true ∧ (t.port 0).timers.probeRepeat = ⟨true, 1000, 1000⟩ ∧
      (t.port 0).front.launched = [.patterns PairSet.full ⟨true, false, false⟩] := by
  decide

/-- R35, R34: where the partner's DONE was heard first, the own DONE still goes out, before the link. -/
theorem test_done_goes_out_before_the_link :
    (let s := resolving .G2 (fun r => { r with
       partnerDone := true, ident := ⟨some ⟨.B, false, 2⟩, some ⟨.A, true, 1⟩, none, none⟩ })
     let t := after (.identificationHearing 0 .B .A true) s
     (t.port 0).train.state = .qualifying ∧ (t.port 0).front.launched =
       [.patterns ⟨true, true, false, false⟩ ⟨true, false, true⟩, .link .G2 .B]) ∧
    (let s := resolving .G3 (fun r => { r with
       identified := true, abCrossed := some false, partnerDone := true, probing := true
       probesOut := ⟨false, false, false, true⟩, qp := ⟨some 1096, some 1102, some 1090, none⟩ })
     let t := after (.probeReturn 0 .D 1124) s
     (t.port 0).train.state = .qualifying ∧ (t.port 0).front.launched =
       [.patterns PairSet.full ⟨true, true, true⟩, .link .G3 .A]) := by
  decide

theorem witness_PartnerMarkers :
    (let s := resolving .G3 id
     (s.port 0).train.state = .resolving ∧ (s.port 0).res.listening = false ∧ (s.port 0).res.checksPassed = false) ∧
    (let s := resolving .G3 (fun r => { r with checksPassed := true })
     (s.port 0).res.checksPassed = true ∧ (s.port 0).train.grade = some .G3) := by
  decide

/-- Probing at G3 with three returns recorded, the fourth out on pair D. -/
def probing (c : Nat) : State :=
  resolving .G3 (fun r => { r with
    probing := true, probesOut := ⟨false, false, false, true⟩, qp := ⟨some 6143, some 6143, some c, none⟩ })

theorem witness_ProbeReturns :
    (let s := resolving .G3 (fun r => { r with probing := true, probesOut := PairSet.full })
     (s.port 0).train.state = .resolving ∧ (s.port 0).res.listening = false ∧ (s.port 0).res.probing = true ∧
       (s.port 0).res.probesOut.get .A = true ∧ (s.port 0).res.qp.get .A = none ∧ (6143 : Nat) ≤ 6143 ∧ (6143 : Nat) < 6144 ∧
       (s.port 0).res.qp.get .B = none) ∧
    (let s := probing 6103
     (s.port 0).train.grade = some .G3 ∧ (s.port 0).res.qp.set .D (some 6143) = ⟨some 6143, some 6143, some 6103, some 6143⟩ ∧
       ∀ k ∈ [6143, 6143, 6103, 6143], k ≤ min (min 6143 6143) (min 6103 6143) + s.setup.skewLimit) ∧
    (let s := probing 6102
     (s.port 0).res.probesOut.get .D = true ∧ NoDownshiftTest 0 s ∧
       ∃ k ∈ [6143, 6143, 6102, 6143], min (min 6143 6143) (min 6102 6143) + s.setup.skewLimit < k) := by
  unfold NoDownshiftTest
  decide

/-- `resolving` at G2 by listening, with the partner's signal on these pairs. -/
def listeningTo (a b : Bool) : State :=
  (resolving .G2 (fun r => { r with listening := true })).modPort 0 (fun pt =>
    { pt with front.signalA := a, front.signalB := b })

theorem witness_ListeningPairs :
    (∀ a ∈ [false, true], ∀ b ∈ [false, true], ((listeningTo a b).port 0).train.state = .resolving ∧
      ((listeningTo a b).port 0).res.listening = true ∧ ((listeningTo a b).port 0).front.signalA = a ∧
      ((listeningTo a b).port 0).front.signalB = b) ∧
    ((portIn .settling).port 0).train.state ≠ .resolving ∧ ((resolving .G2 id).port 0).res.listening = false ∧
    (∀ a ∈ [false, true], let s := (listeningTo a (!a)).modPort 0 (fun pt =>
       { pt with timers.qualifyA := ⟨a, 2000, 2000⟩, timers.qualifyB := ⟨!a, 2000, 2000⟩ })
     (s.port 0).timers.qualifyA.running = a ∧ (s.port 0).timers.qualifyB.running = !a ∧ (s.port 0).train.grade = some .G2) := by
  decide

/-- R32: a signal that stands on pair B at the entry qualifies it, and the link goes out on pair A. -/
theorem test_standing_signal_qualifies :
    let s := (portIn .settling).modPort 0 (fun pt =>
      { pt with train.forced := some .G2, front.signalB := true, timers.settle := ⟨true, 4000, 4000⟩ })
    let t := after (.settleExpiry 0) s
    (t.port 0).timers.qualifyB = ⟨true, 0, 2000⟩ ∧
      ((after (.pairQualifies 0 .B) t).port 0).train.state = .qualifying ∧
      ((after (.pairQualifies 0 .B) t).port 0).front.launched = [.link .G2 .A] := by
  decide

theorem witness_ErrorFreeTarget :
    (let s := portIn .qualifying
     (s.port 0).train.state = .qualifying ∧ (s.port 0).train.shadowed = false ∧ (s.port 0).front.energy = true) ∧
    (let s := withPort0 (fun pt => { pt with train.state := .qualifying })
     (s.port 0).train.state = .qualifying ∧ (s.port 0).front.energy = false ∧ (s.criteria 0).energyLoss = true) ∧
    (let s := withCriteria ⟨true, false, false, false, false⟩ (withPort0 (fun pt => { pt with train.state := .qualifying }))
     (s.port 0).front.energy = false ∧ (s.criteria 0).energyLoss = false) := by
  decide

theorem ready (s : State) (h : s.line = running.line) : RequestReady s ∧ FrameReady s := by
  unfold RequestReady FrameReady
  rw [h]
  decide

theorem witness_Measure :
    RequestReady (portIn .settling) ∧ (portIn .settling).station.phase = .run ∧ reachOf 2 = some .long ∧
    (let s := { portIn .held with queue := [⟨0, PairSet.full, .short, .n1, false, .normal, .console, none, 0, some 1⟩] }
     heldFor 0 s = true) ∧
    (heldFor 0 (portIn .disabled) = false ∧ ((portIn .disabled).port 0).train.state = .disabled) ∧
    (let s := { portIn .settling with queue := [waitingEntry 0 .background .sweep] }
     heldFor 0 s = false ∧ (s.port 0).train.state ≠ .disabled ∧ waitingFor 0 s = some (waitingEntry 0 .background .sweep)) ∧
    (waitingFor 0 (portIn .settling) = none ∧ (portIn .settling).queue.length < 16) ∧
    (let s := { portIn .settling with queue := fullQueue }
     waitingFor 0 s = none ∧ 16 ≤ s.queue.length) := by
  refine ⟨(ready _ rfl).1, ?_⟩
  decide

/-- A sweep over ports 0 and 11, its cursor given. -/
def sweeping (period : Nat) (cursor : Option PortId) (queue : List Entry) : State :=
  { running with
    queue := queue
    sweep := ⟨.running, 5, some ⟨portSetOf 8 1, .long, .n4, period⟩, cursor, ⟨false, 0, 0⟩⟩ }

theorem witness_Sweeps :
    (let s := sweeping 0 (some 11) []
     s.sweep.fields = some ⟨portSetOf 8 1, .long, .n4, 0⟩ ∧
       ∀ q : PortId, (portSetOf 8 1).has q = true → ¬∀ c, s.sweep.cursor = some c → c < q) ∧
    (sweeping 255 (some 11) []).sweep.fields = some ⟨portSetOf 8 1, .long, .n4, 255⟩ ∧
    (let s := sweeping 0 none []
     (portSetOf 8 1).has 0 = true ∧ s.sweep.cursor = none ∧ heldFor 0 s = false ∧ waitingFor 0 s = none ∧ s.queue.length < 16) ∧
    (let s := sweeping 0 (some 0) []
     (portSetOf 8 1).has 11 = true ∧ (∀ c, s.sweep.cursor = some c → c < 11) ∧
       ∀ q : PortId, (portSetOf 8 1).has q = true → (∀ c, s.sweep.cursor = some c → c < q) → 11 ≤ q) ∧
    heldFor 0 (sweeping 0 none [⟨0, PairSet.full, .short, .n1, false, .normal, .console, none, 0, some 1⟩]) = true ∧
    waitingFor 0 (sweeping 0 none [waitingEntry 0 .normal .console]) = some (waitingEntry 0 .normal .console) ∧
    (waitingFor 0 (sweeping 0 none fullQueue) = none ∧ 16 ≤ (sweeping 0 none fullQueue).queue.length) ∧
    (reachOf 0 = some .short ∧ portSetOf 0xF0 0 = PortSet.none ∧ portSetOf 8 0 ≠ PortSet.none) ∧
    ({ running with sweep := { running.sweep with status := .waitingPeriod } } : State).sweep.status = .waitingPeriod := by
  decide

/-- Port 0 HELD by its measurement, which channel 0 holds; the entry's tag, the sweep and the pending check given. -/
def ending (tag : Option Byte) (status : SweepStatus) (check : Bool) (c : Health) : State :=
  { measuring.modPort 0 (fun pt => { pt with
      train.downshiftCheck := check, train.fourPair := 3, train.health := ⟨.sound, .sound, c, .sound⟩ }) with
    queue := [{ heldNow with tag := tag }]
    sweep := ⟨status, 5, some ⟨portSetOf 8 1, .long, .n4, 0⟩, some 0, ⟨false, 0, 0⟩⟩ }

theorem witness_FinalOutcome :
    (let s := { (portIn .held).modPort 0 (fun pt => { pt with train.holds := ⟨false, false, true⟩ }) with
       queue := [waitingEntry 0 .urgent .drop] }
     entryFor 0 s = some (waitingEntry 0 .urgent .drop) ∧ (waitingEntry 0 .urgent .drop).holder = none ∧
       (s.port 0).train.downshiftCheck = false ∧ (s.port 0).train.state = .held ∧
       (s.port 0).train.holds = ⟨false, false, true⟩) ∧
    (∀ tag ∈ [none, some (5 : Byte)], ∀ st ∈ [SweepStatus.running, .waitingSpace], ∀ c ∈ [Health.sound, .faulty],
      let s := ending tag st true c
      entryFor 0 s = some { heldNow with tag := tag } ∧ heldNow.holder = some 0 ∧ s.sweep.tag = 5 ∧ s.sweep.fields.isSome ∧
        s.sweep.status = st ∧ (s.port 0).train.downshiftCheck = true ∧ (s.port 0).train.health.c = c ∧
        (s.port 0).train.state = .held ∧ (s.port 0).train.holds = ⟨true, false, false⟩) ∧
    (∃ o : FinalOutcome, o = .cancelled ∨ o = .portDisabled ∨ o = .skippedLinkUp) ∧
    (let s := { portIn .settling with queue := [waitingEntry 0 .normal .console] }
     entryFor 0 s = some (waitingEntry 0 .normal .console) ∧ (s.port 0).train.state ≠ .held) := by
  exact ⟨by decide, by decide +kernel, ⟨.cancelled, .inl rfl⟩, by decide⟩

/-- R41, R71: the second downshift test at the end of the sweep's own entry sets downshift, and the sweep advances to port 11. -/
theorem test_second_downshift_test_and_sweep_advance :
    let t := finalOutcome 0 .cancelled (ending (some 5) .running true .faulty)
    (t.port 0).train.downshift = true ∧ (t.port 0).train.fourPair = 0 ∧ (t.port 0).train.downshiftCheck = false ∧
      t.queue.map Entry.target = [11] ∧ t.sweep.cursor = some 11 := by
  decide

theorem witness_Cancels :
    RequestReady running ∧
    (let s := { portIn .settling with queue := [waitingEntry 0 .normal .console] }
     (s.port 0).watch.dropSettle.running = false ∧ waitingFor 0 s ≠ none) ∧
    (waitingFor 0 running = none ∧ (running.port 0).watch.dropSettle.running = false ∧
      (∀ ch m, (running.chan ch).meas = some m → m.port ≠ 0)) ∧
    (waitingFor 0 measuring = none ∧ (measuring.chan 0).meas = some ⟨0, 0, 4, 2⟩ ∧
      (∀ n, (measuring.chan (otherChannel 0)).meas = some n → n.port ≠ 0)) ∧
    (let s := settlingDrop ⟨false, true, false⟩
     RequestReady s ∧ (s.port 0).watch.dropSettle.running = true ∧ (s.port 0).train.state = .held ∧
       (s.port 0).train.holds = ⟨false, true, false⟩) ∧
    (let s := settlingDrop ⟨true, true, false⟩
     (s.port 0).watch.dropSettle.running = true ∧
       { (s.port 0).train.holds with settle := false } ≠ (⟨false, false, false⟩ : HoldReasons)) ∧
    (let s := { running with queue := [waitingEntry 0 .normal .console] }
     (∀ ch, (s.chan ch).meas = none) ∧ (∀ e ∈ s.queue, e.holder = none) ∧ s.sweep.fields = none) := by
  refine ⟨requestReady_running.1, by decide, ⟨by decide, by decide, holds_nothing (by decide)⟩, ⟨by decide, by decide, ?_⟩,
    ⟨(ready _ rfl).1, by decide, by decide, by decide⟩, by decide, by decide⟩
  intro n h
  cases h
  decide

theorem witness_Restarts :
    RequestReady upState ∧ (upState.port 0).train.offerMask.has .G1 = true ∧ (upState.port 0).train.state = .up ∧
    ((portIn .disabled).port 0).train.state = .disabled ∧ ((portIn .held).port 0).train.state = .held ∧
    ((portIn .backoff).port 0).train.state = .backoff ∧ upState.station.phase = .run ∧
    atSetup.station.phase ≠ .run ∧ (atSetup.port 0).train.consoleDisabled = false ∧ atSetup.unserved 0 = false ∧
    ((atSetup.modPort 0 (fun pt => { pt with train.consoleDisabled := true })).port 0).train.consoleDisabled = true ∧
    (∀ st ∈ [TrainState.up, .backoff], let s := (portIn st).modPort 0 (fun pt => { pt with train.offerMask := ⟨false, false, true, true⟩ })
     (s.port 0).train.state = st ∧ (s.port 0).train.offerMask.has .G1 = false ∧ (s.port 0).train.offerMask.has .G2 = false) := by
  refine ⟨requestReady_running.2.2.1, ?_⟩
  decide

theorem witness_OfferEnableDisableReset :
    RequestReady (portIn .up) ∧ RequestReady measuring ∧ rolePrefOf 2 = some .either ∧ (gradeSetOf 1).isEmpty = false ∧
    (gradeSetOf 0xF0).isEmpty = true ∧
    (∀ st ∈ [TrainState.offline, .disabled, .dormant, .settling, .offering, .resolving, .qualifying, .up, .backoff, .held],
      ((portIn st).port 0).train.state = st ∧ waitingFor 0 (portIn st) = none) ∧
    (∀ ch m, ((portIn .up).chan ch).meas = some m → m.port ≠ 0) ∧ (portIn .up).unserved 0 = false ∧
    ({ running with station := { running.station with population := .eight } } : State).unserved 8 = true ∧
    (∀ tag ∈ [none, some (5 : Byte)], let s := { sweeping 0 (some 0) [{ waitingEntry 0 .normal .console with tag := tag }] with
       ports := (portIn .settling).ports }
     waitingFor 0 s = some { waitingEntry 0 .normal .console with tag := tag } ∧ s.sweep.tag = 5 ∧ s.sweep.fields.isSome ∧
       (s.port 0).train.state = .settling) ∧
    (waitingFor 0 measuring = none ∧ (measuring.chan 0).meas = some ⟨0, 0, 4, 2⟩ ∧
      ∀ n, (measuring.chan (otherChannel 0)).meas = some n → n.port ≠ 0) := by
  refine ⟨(ready _ rfl).1, ?_, by decide, by decide, by decide, by decide, holds_nothing (by decide), by decide, by decide, by decide +kernel,
    by decide, by decide, ?_⟩
  · unfold RequestReady
    decide
  · intro n h
    cases h
    decide

def oneEcho : PairResult :=
  ⟨.openEnd, some 863, some 1400, false, [⟨863, 2035, 64, true, .openEnd, false, none, none⟩]⟩

/-- Port 0 with a record of one echo on each pair. -/
def recorded : State :=
  withPort0 (fun pt =>
    { pt with store := { pt.store with record := (some ⟨44, .console, .complete, .long, .n4, PerPair.const oneEcho⟩) } })

theorem witness_Queries :
    RequestReady running ∧ ((running.port 0).store.record = none ∧ (4 : Byte).toNat < 5) ∧
    ((recorded.port 0).store.record = some ⟨44, .console, .complete, .long, .n4, PerPair.const oneEcho⟩ ∧
      ((PerPair.const oneEcho).get .D).echoes[(0 : Byte).toNat]? = some ⟨863, 2035, 64, true, .openEnd, false, none, none⟩ ∧
      ((PerPair.const oneEcho).get .D).echoes.length ≤ (1 : Byte).toNat) ∧
    (running.port 0).train.state ≠ .up ∧
    (let s := { upState.modPort 0 (fun pt => { pt with res.qp := ⟨some 100, some 1102, some 1090, some 1124⟩ }) with
       station := { running.station with calibration := some (ofPorts (fun _ => some ⟨PerPair.const 22, PerPair.const ⟨[], [], []⟩⟩)) } }
     (s.port 0).train.state = .up ∧ (s.port 0).train.grade.any fourPairGrade = true ∧
       (s.port 0).res.qp = ⟨some 100, some 1102, some 1090, some 1124⟩ ∧
       s.station.calibration = some (ofPorts (fun _ => some ⟨PerPair.const 22, PerPair.const ⟨[], [], []⟩⟩)) ∧
       (ofPorts (fun _ => some (⟨PerPair.const 22, PerPair.const ⟨[], [], []⟩⟩ : PortCal)))[0] =
         some ⟨PerPair.const 22, PerPair.const ⟨[], [], []⟩⟩) ∧
    (running.sweep.fields = none ∧ (sweeping 0 none []).sweep.fields.isSome) ∧
    (running.view.length ≤ (15 : Byte).toNat ∧ (15 : Byte).toNat ≤ 15) ∧
    measuring.view[(1 : Byte).toNat]? = some ⟨1, 4, true, 30, .normal, 2, 500, 1628⟩ ∧
    [false, true].length < 8 ∧ 65535 < 65536 ∧
    (running.summary = Summary.empty ∧ ∀ f ∈ running.line.list, f.kind ≠ .alert) ∧
    (running.summary = Summary.empty ∧ ∃ f ∈ measuring.line.list, f.kind = .alert) ∧
    (Summary.empty.add .lineStuck ≠ Summary.empty ∧ (Summary.empty.add .lineStuck).has .lineStuck = true ∧
      (Summary.empty.add .lineStuck).has .selfLocked = false) := by
  refine ⟨requestReady_running.1, ?_⟩
  decide

theorem witness_Setup : RequestReady atSetup ∧ toThis.broadcast = false ∧ atSetup.station.phase = .setup ∧
    reachOf 2 = some .long := by
  exact ⟨requestReady_running.2.1, by decide⟩

def calibratedState (phase : StationPhase) (locked : Bool) : State :=
  { running with station := { running.station with
      phase := phase, locked := locked, calibration := some (ofPorts (fun _ => none)) } }

theorem witness_StationPhases :
    RequestReady atSetup ∧ RequestReady (calibratedState .listen true) ∧
    ((calibratedState .listen true).station.phase ≠ .setup ∧ (calibratedState .listen true).station.locked = true) ∧
    ((calibratedState .listen true).station.phase = .listen ∧ (calibratedState .listen true).station.calibration.isSome ∧
      ∀ f ∈ (calibratedState .listen true).line.list, f.kind ≠ .rejoin) ∧
    (∀ w ∈ [Timer.off, ⟨false, 5, 2000000⟩],
      let s := { calibratedState .listen false with
        station := { (calibratedState .listen false).station with window := w } }
      s.station.phase = .listen ∧ s.station.calibration.isSome ∧ s.station.locked = false ∧ s.station.window = w) ∧
    (State.reset.station.phase = .listen ∧ State.reset.station.calibration = none ∧
      ∀ f ∈ State.reset.line.list, f.kind ≠ .rejoin) ∧
    ((calibratedState .calibrating true).station.phase = .calibrating ∧
      (calibratedState .calibrating true).station.locked = true) ∧
    ((calibratedState .calibrating false).station.phase = .calibrating ∧
      (calibratedState .calibrating false).station.locked = false) := by
  exact ⟨requestReady_running.2.1, (ready _ rfl).1, by decide⟩

/-- R185 step 4: a port whose driven pair gives 100 from quarter-tick 20 on has Q0 = 20; a pair that gives nothing has 127. -/
theorem test_calibration_q0 :
    calibrationQ0 (List.replicate 20 0 ++ List.replicate 200 100) = 20 ∧ calibrationQ0 (List.replicate 200 0) = 127 := by
  decide +kernel

/-- No port of this input is marked CAL_FAULT. -/
def goodCalibration : List CalibrationInput :=
  List.replicate 12 (PerPair.const ⟨List.replicate 64 (List.replicate 8 0 ++ List.replicate 500 1000), [], []⟩)

theorem witness_GoodCalibration :
    (∀ p, (calibrated (calibratedState .calibrating true).station.population goodCalibration p).any calFaulty = false) ∧
    ((calibrated (calibratedState .calibrating true).station.population [] 0).any calFaulty = true) := by
  decide +kernel

theorem witness_Calibration :
    ((0, 0) ∈ [((0 : Nat), (0 : Nat)), (1, 2), (2, 1), (3, 3)] ∧ 255 < 256 ∧ 1535 < 1536) ∧
    (let record := (calibrationRecord .short (List.replicate 64 (List.replicate 8 0 ++ List.replicate 248 1000))).take 128
     (∀ v ∈ record, v ≤ 1000) ∧ 1000 ∈ record) ∧
    (let record := (calibrationRecord .short []).take 128
     (∀ v ∈ record, v ≤ 0) ∧ 0 ∈ record) ∧
    (let s := { State.reset with station := { State.reset.station with
       phase := .calibrating, listen := Timer.off, calibrating := ⟨true, 12291, 147456⟩ } }
     s.pending = [] ∧ due s = none ∧ s.station.phase = .calibrating ∧ s.station.calibrating.tick.elapsed = 12292 ∧
       12292 / 12288 = 1 ∧ 12292 % 12288 / 16 = 0 ∧ 12292 % 16 = 4 ∧ 1 < populationCount s.station.population) := by
  decide +kernel

/-- R185: 4 µs into the second port's turn its pairs are on internal termination and the first SHORT shot goes out on pair A. -/
theorem test_calibration_shot :
    let s := { State.reset with station := { State.reset.station with
      phase := .calibrating, listen := Timer.off, calibrating := ⟨true, 12291, 147456⟩ } }
    ((advance s).port 1).front.terminated = true ∧ ((advance s).port 0).front.terminated = false ∧
      ((advance s).port 1).front.launched = [.pulse .A 4] := by
  decide +kernel

theorem witness_RequestChecks :
    RequestReady running ∧ RequestReady atSetup ∧ running.station.phase = .run ∧ running.station.phase ≠ .setup ∧
    atSetup.station.phase ≠ .run ∧ (0 : Byte).toNat = 0 ∧ 10 ≤ (10 : Byte).toNat ∧ ([0, 0, 0, 0] : List Byte).length < 5 ∧
    (1 ≤ (9 : Byte).toNat ∧ (9 : Byte).toNat ≤ 9 ∧ (9 : Byte) ≠ 3 ∧ (9 : Byte) ≠ 7) ∧ 3 ≤ (3 : Byte).toNat ∧
    ((2 : Byte).toNat ≤ 2 ∧ 12 ≤ (12 : Byte).toNat) ∧ ((3 : Byte) ≠ 1 ∧ (3 : Byte) ≠ 2) ∧ running.station.locked = false ∧
    (let s := { running with line := { running.line with
       list := [⟨.report, [1, 0], none, false⟩, ⟨.report, [1, 0], none, false⟩] } }
     FrameReady s ∧ 2 ≤ countKind .report s.line.list) := by
  unfold RequestReady FrameReady
  decide

/-- A request's first failing check is row n, answered r. -/
def FailsFirst (b : Bool) (payload : List Byte) (st : Station) (n : Nat) (r : Reason) : Prop :=
  ∃ before failed after, before.length = n ∧ checkRows b payload st = before ++ (failed, r) :: after ∧ failed ∧
    ∀ x ∈ before, ¬x.1

theorem witness_RequestRows :
    (requestOf (.cancelSweep ⟨true, [9]⟩ true 12 63) = some (true, [3, 12, 255, 9]) ∧
      requestOf (.badKindRequest false [9, 2, 12]) = some (false, [9, 2, 12])) ∧
    FailsFirst false [10] running.station 0 .badKind ∧
    FailsFirst false [5, 4, 0, 0] running.station 1 .badKind ∧
    FailsFirst false [6, 25, 0] running.station 1 .badKind ∧
    FailsFirst true [8] running.station 2 .badKind ∧
    FailsFirst false [2, 0, 0, 3, 0, 0] atSetup.station 3 .notRunning ∧
    FailsFirst false [6, 28] { running.station with locked := true } 4 .locked ∧
    FailsFirst true [7] running.station 5 .notSetup ∧
    FailsFirst false [8] running.station 6 .notSetup ∧
    FailsFirst false [4, 12, 3, 0, 3] running.station 7 .badKind ∧
    FailsFirst false [6, 19, 3] atSetup.station 7 .badKind ∧
    FailsFirst false [9, 2, 12] running.station 7 .badKind ∧
    FailsFirst false [4, 12, 2, 3] running.station 8 .badGrade ∧
    FailsFirst false [3, 12, 2] running.station 9 .badPort ∧
    FailsFirst false [6, 6, 12, 1] atSetup.station 9 .badPort ∧
    FailsFirst false [5, 4, 11, 3, 6] running.station 10 .badTarget ∧
    ∀ payload ∈ ([[3, 12, 1], [9, 1, 255], [5, 7, 15], [5, 4, 11, 3, 5], [4, 11, 2, 2]] : List (List Byte)),
      ∀ x ∈ checkRows false payload running.station, ¬x.1 := by
  have hr : running.station.phase = .run := by decide
  have hl : running.station.locked = false := by decide
  have hs : atSetup.station.phase = .setup := by decide
  refine ⟨by decide, ⟨[], _, _, rfl, rfl, ?_, ?_⟩,
    ⟨[_], _, _, rfl, rfl, ?_, ?_⟩,
    ⟨[_], _, _, rfl, rfl, ?_, ?_⟩,
    ⟨[_, _], _, _, rfl, rfl, ?_, ?_⟩,
    ⟨[_, _, _], _, _, rfl, rfl, ?_, ?_⟩,
    ⟨[_, _, _, _], _, _, rfl, rfl, ?_, ?_⟩,
    ⟨[_, _, _, _, _], _, _, rfl, rfl, ?_, ?_⟩,
    ⟨[_, _, _, _, _, _], _, _, rfl, rfl, ?_, ?_⟩,
    ⟨[_, _, _, _, _, _, _], _, _, rfl, rfl, ?_, ?_⟩,
    ⟨[_, _, _, _, _, _, _], _, _, rfl, rfl, ?_, ?_⟩,
    ⟨[_, _, _, _, _, _, _], _, _, rfl, rfl, ?_, ?_⟩,
    ⟨[_, _, _, _, _, _, _, _], _, _, rfl, rfl, ?_, ?_⟩,
    ⟨[_, _, _, _, _, _, _, _, _], _, _, rfl, rfl, ?_, ?_⟩,
    ⟨[_, _, _, _, _, _, _, _, _], _, _, rfl, rfl, ?_, ?_⟩,
    ⟨[_, _, _, _, _, _, _, _, _, _], _, _, rfl, rfl, ?_, ?_⟩,
    ?_⟩
  all_goals simp [BytesMissing, CodeUnlisted, PortBeyond, PageBeyond, checkRows, codeAt, hr, hl, hs]

/-- Channel 0 of `measuring` at a stage, with shots launched and a pending stop. -/
def shooting (stage : ShotStage) (launched : Nat) (stop : Option StopOutcome) : State :=
  measuring.modChan 0 (fun c => { c with stage := stage, launched := launched, stop := stop })

theorem witness_LaunchTriggers :
    (let s := shooting .gap 0 none
     (s.chan 0).phase = .bursting ∧ (s.chan 0).stage = .gap ∧ (s.chan 0).meas = some ⟨0, 0, 4, 2⟩ ∧
       heldEntry 0 s = some heldNow ∧ heldNow.target = 0 ∧ (s.chan 0).working = none ∧ (s.chan 0).stop = none ∧
       (s.port 0).train.state = .held ∧ (∀ v ∈ s.view, conflicts s.station.geometry 0 v.target = false) ∧
       heldNow.pairs.members[(s.chan 0).launched / (4 * averagingCount heldNow.averaging)]? = some .A) ∧
    (let s := shooting .recovery 3 none
     (s.chan 0).stage = .recovery ∧ (s.chan 0).launched < 4 ∧
       heldNow.pairs.members[(s.chan 0).launched / (4 * averagingCount heldNow.averaging)]? = some .A) ∧
    (let s := { shooting .gap 0 none with view := [neighbourEntry] }
     (s.chan 0).claim = some activeNow ∧ activeNow.state = .active ∧
       ∃ v ∈ s.view, conflicts s.station.geometry 0 v.target = true) ∧
    (∀ o ∈ [StopOutcome.preempted, .withdrawn, .cancelled, .portDisabled], let s := shooting .gap 1 (some o)
     (s.chan 0).working = none ∧ (s.chan 0).stop = some o ∧ (s.chan 0).phase = .bursting ∧ (s.chan 0).stage = .gap) ∧
    (let s := (shooting .recovery 2 none).modChan 0 (fun c =>
       { c with working := (some ⟨0, .A, .short, PerPair.const (PerPhase.const [])⟩) })
     (s.chan 0).working.isSome ∧ ∃ t, exec (.pairResultReturn 0) s = .next t) := by
  refine ⟨by decide, by decide, ⟨by decide, by decide, neighbourEntry, by decide, by decide⟩, by decide, by decide, _, rfl⟩

theorem witness_Captures :
    (let s := shooting .capture 1 none
     (s.chan 0).stage = .capture ∧ (s.chan 0).stop = none ∧
       (s.chan 0).launched % (4 * averagingCount heldNow.averaging) ≠ 0) ∧
    (let s := shooting .capture 4 none
     (s.chan 0).launched % (4 * averagingCount heldNow.averaging) = 0 ∧
       heldNow.pairs.members[((s.chan 0).launched - 1) / (4 * averagingCount heldNow.averaging)]? = some .A) ∧
    (∀ o ∈ [StopOutcome.preempted, .withdrawn],
      ((shooting .capture 1 (some o)).chan 0).stop = some o ∧ ((shooting .capture 1 (some o)).chan 0).claim = some activeNow) ∧
    (let s := (shooting .recovery 4 none).modChan 0 (fun c =>
       { c with working := (some ⟨0, .A, .short, PerPair.const (PerPhase.const [])⟩) })
     (s.chan 0).working = some ⟨0, .A, .short, PerPair.const (PerPhase.const [])⟩ ∧ (s.chan 0).phase = .bursting ∧
       (s.chan 0).meas = some ⟨0, 0, 4, 2⟩ ∧ heldEntry 0 s = some heldNow) := by
  decide

theorem witness_Bursts :
    (let s := shooting .recovery 4 none
     (s.chan 0).phase = .bursting ∧ (s.chan 0).meas = some ⟨0, 0, 4, 2⟩ ∧ heldEntry 0 s = some heldNow ∧
       entryFor 0 s = some heldNow ∧ heldNow.tag = none ∧ heldNow.target = 0 ∧ (s.chan 0).claim = some activeNow ∧
       activeNow.state ≠ .queued ∧ (s.chan 0).sequence = some 7 ∧
       s.sweep.status ≠ .waitingSpace ∧ (s.port 0).train.downshiftCheck = false ∧ (s.chan 0).working = none ∧
       (s.chan 0).stage = .recovery ∧ 4 ≤ (s.chan 0).launched) ∧
    (let s := shooting .gap 0 none
     (s.chan 0).stage = .gap ∧ s.setup.busy ≤ (digitize (-96)).natAbs ∧ (digitize 95).natAbs < s.setup.busy ∧
       heldNow.pairs.members[(s.chan 0).launched / (4 * averagingCount heldNow.averaging)]? = some .A) ∧
    ((shooting .recovery 3 none).chan 0).launched < 4 ∧
    (let r : Pair × PairResult := (.A, oneEcho)
     [r].find? (fun r => r.1 = .A) = some r ∧ [r].find? (fun r => r.1 = .B) = none) := by
  decide

/-- Section 4.7.4: the 8193rd shot brings PACED with 2 windows left; R81: a threshold of 65535 is never exceeded. -/
theorem test_budget_of_the_example :
    (countShot 8192 2 { Budget.fresh with shots := 8191 }).paced = false ∧
    (countShot 8192 2 { Budget.fresh with shots := 8192 }).paced = true ∧
    (countShot 8192 2 { Budget.fresh with shots := 8192 }).paceLeft = 2 ∧
    (countShot 65535 2 { Budget.fresh with shots := 65535 }).paced = false := by
  decide +kernel

theorem witness_PulseBudget :
    (8192 ≤ 8192 ∧ 8192 < min 65535 (8192 + 1)) ∧ ¬(65535 ≤ 65535 ∧ 65535 < min 65535 (65535 + 1)) ∧
    (let s := { running with budget := { running.budget with window := ⟨true, 1000000, 1000000⟩, pace := ⟨true, 50000, 50000⟩ } }
     s.station.phase = .run ∧ s.budget.window.running = true ∧ s.budget.pace.running = true) := by
  decide +kernel

/-- A waiting entry for port 0 in a state, that channel 1 now holds. -/
def offered (st : TrainState) (intrusive : Bool) : State :=
  { portIn st with queue := [{ waitingEntry 0 .normal .console with intrusive := intrusive }] }

theorem witness_Offers :
    ((atSetup.station.phase ≠ .run) ∧
      ({ running with line := { running.line with condition := .stuck } } : State).line.condition = .stuck ∧
      State.reset.station.announced = false) ∧
    (∃ t, offerTo 1 (offered .backoff false) = some t) ∧
    (let s := offered .backoff false
     s.station.phase = .run ∧ s.line.condition ≠ .stuck ∧ s.line.listenIn.running = false ∧ s.line.duplicate = false ∧
       s.station.announced = true ∧ (∀ ch, (s.chan ch).phase = .idle ∧ (s.chan ch).meas = none) ∧
       waitingEntry 0 .normal .console ∈ s.queue ∧ s.view = [] ∧ s.budget.paced = false) ∧
    (let s := { offered .backoff false with queue := [waitingEntry 0 .background .sweep] }
     waitingEntry 0 .background .sweep ∈ s.queue ∧ ∀ x ∈ s.queue, x.holder = none → x.priority = .background) ∧
    (∀ s ∈ [offered .backoff false, offered .up true], ∀ e ∈ s.queue, e.holder = none →
      (s.port e.target).train.state ≠ .disabled ∧ ((s.port e.target).train.state = .up → e.intrusive = true)) ∧
    (∀ st ∈ [TrainState.disabled, .up, .backoff], ∀ b ∈ [false, true],
      ((setHolder 0 (some 1) (offered st b)).port 0).train.state = st ∧ ((offered st b).chan 1).phase = .idle ∧
      heldEntry 1 (setHolder 0 (some 1) (offered st b)) =
        some { waitingEntry 0 .normal .console with intrusive := b, holder := some 1 }) := by
  exact ⟨by decide, ⟨_, rfl⟩, by decide, by decide, by decide, by decide⟩

/-- R85: a pickup that ends at once leaves the channel IDLE, with nothing of the measurement before it. -/
theorem test_pickup_that_ends_at_once_starts_afresh :
    ∀ st ∈ [TrainState.disabled, .up], ∀ t ∈ [pickup 1 (waitingEntry 0 .normal .console)
        ((offered st false).modChan 1 (fun c => { c with settled := true, launched := 9, results := [(.A, notMeasured)] }))],
      (t.chan 1).phase = .idle ∧ (t.chan 1).settled = false ∧ (t.chan 1).launched = 0 ∧ (t.chan 1).results = [] ∧ t.queue = [] := by
  decide +kernel

/-- Channel 0 of `measuring` in a phase, its claim in a state and of a priority, a frame of its own on the line. -/
def claiming (ph : Phase) (st : ClaimState) (pri : Priority) (kind : FrameKind) : State :=
  { measuring.modChan 0 (fun c => { c with
      phase := ph, settle := ⟨true, 16000, 16000⟩
      claim := (some { activeNow with state := st, priority := pri }) }) with
    line := { running.line with
      list := [⟨kind, [1, 0, 1, 2], some 0, false⟩]
      onLine := (some ⟨⟨kind, [1, 0, 1, 2], some 0, false⟩, frameBits (frameKindCode kind) 0 15 [1, 0, 1, 2], 1⟩) } }

/-- The own frame's bits read up to a position, the last one as `last`. -/
def readTo (n : Nat) (last : Bool) (s : State) : State :=
  match s.line.onLine with
  | none => s
  | some o => { s with line := { s.line with
      condition := .busy, idleCount := 0, assembler := .receiving, heard := o.bits.take (n - 1) ++ [last] } }

/-- `claiming`, with a stop pending and this view. -/
def pressed (ph : Phase) (st : ClaimState) (pri : Priority) (kind : FrameKind) (stop : Option StopOutcome) (view : List ViewEntry) :
    State :=
  { (claiming ph st pri kind).modChan 0 (fun c => { c with stop := stop }) with view := view }

/-- The own frame of `claiming` on the line. -/
def ownOnLine (kind : FrameKind) : OnLine :=
  ⟨⟨kind, [1, 0, 1, 2], some 0, false⟩, frameBits (frameKindCode kind) 0 15 [1, 0, 1, 2], 1⟩

/-- Bits of a frame with four payload bytes at which it leaves: the objection slot (bit 64) read, or the bit before it; a faulting
bit from the spacer after byte 0 (bit 10) on, read or about to be driven. -/
def departureBits : List (Departure × Nat × Bool) :=
  [(.sent, 64, true), (.sent, 63, true), (.voided, 64, false), (.voided, 63, true), (.abandoned, 10, false), (.abandoned, 9, true)]

theorem departs (kind : FrameKind) (k : Departure × Nat × Bool) (h : k ∈ departureBits) :
    leavesLine k.1 (ownOnLine kind) (readTo k.2.1 k.2.2 (claiming .claiming .queued .normal kind)).line = true := by
  revert k; cases kind <;> decide +kernel

/-- Both channels PREPARING and settled, with this view. -/
def settledChannels (view : List ViewEntry) : State :=
  { measuring with
    channels := measuring.channels.map (fun c => { c with phase := .preparing, settled := true, claim := none })
    view := view }

theorem witness_LocalClaims :
    (((claiming .preparing .queued .normal .report).chan 0).phase = .preparing ∧
      ((claiming .preparing .queued .normal .report).chan 0).settle.running = true) ∧
    (∀ stop ∈ [none, some StopOutcome.cancelled], ∀ pri ∈ [Priority.normal, .background], ∀ view ∈ [[], [neighbourEntry]],
      let s := pressed .claiming .queued pri .claim stop view
      (s.chan 0).claim = some { activeNow with state := .queued, priority := pri } ∧ (s.chan 0).meas = some ⟨0, 0, 4, 2⟩ ∧
        heldEntry 0 s = some heldNow ∧ heldNow.target = 0 ∧ (s.chan 0).stop = stop ∧ s.view = view ∧ (ownOnLine .claim).frame.isFor .claim 0 = true) ∧
    (∀ k ∈ departureBits, ∀ stop, ∀ pri, ∀ view,
      ∃ t, FrameLeaves k.1 (ownOnLine .claim) (readTo k.2.1 k.2.2 (pressed .claiming .queued pri .claim stop view)) t) ∧
    (∀ v ∈ ([] : List ViewEntry), conflicts .singleRow 0 v.target = false) ∧ conflicts .singleRow 0 neighbourEntry.target = true ∧
    judge .normal 0 .urgent 1 = .newLoses ∧ judge .background 0 .urgent 1 = .newYields ∧
    judge .normal 0 .background 1 = .knownLoses ∧
    (∀ view ∈ [[], [{ neighbourEntry with priority := .background }], [neighbourEntry]],
      let s := pressed .claiming .holdoff .urgent .report none view
      (s.chan 0).phase = .claiming ∧ (s.chan 0).claim = some { activeNow with state := .holdoff, priority := .urgent } ∧
        s.view = view) ∧
    (let s := claiming .waitYield .waitYield .urgent .report
     (s.chan 0).phase = .waitYield ∧ (s.chan 0).stop = none) ∧
    (∀ k ∈ departureBits, ∃ t, FrameLeaves k.1 (ownOnLine .release) (readTo k.2.1 k.2.2 (claiming .releasing .releasing .normal .release)) t) ∧
    (ownOnLine .release).frame.isFor .release 0 = true ∧ ((claiming .releasing .releasing .normal .release).chan 0).phase = .releasing := by
  refine ⟨by decide, by decide +kernel, ?_, by decide, by decide, by decide, by decide, by decide, by decide +kernel, by decide, ?_,
    by decide, by decide⟩
  · intro k hk stop pri view
    exact exists_frameLeaves rfl (departs .claim k hk)
  · intro k hk
    exact exists_frameLeaves rfl (departs .release k hk)

/-- R86, R90: a settled channel claims, and a channel waits behind a counted conflict; a yielded channel bursts. -/
theorem witness_WaitingChannelsMoveOn :
    (let s := settledChannels []
     readyToClaim s 0 = true ∧ readyToClaim s 1 = true ∧ (s.chan 0).meas = some ⟨0, 0, 4, 2⟩ ∧ heldEntry 0 s = some heldNow) ∧
    (let s := settledChannels [neighbourEntry]
     readyToClaim s 0 = false ∧ readyToClaim s 1 = true) ∧
    (readyToClaim running 0 = false ∧ readyToClaim running 1 = false) ∧
    (let s := pressed .waitYield .waitYield .urgent .report none []
     readyToBurst s 0 = true ∧ readyToBurst s 1 = false ∧
       (s.chan 0).claim = some { activeNow with state := .waitYield, priority := .urgent }) ∧
    readyToBurst (pressed .waitYield .waitYield .urgent .report none [neighbourEntry]) 0 = false := by
  decide +kernel

theorem witness_Stops :
    (∀ ph ∈ [Phase.idle, .releasing, .preparing, .waitYield, .claiming], ∀ k ∈ [FrameKind.report, .claim],
      let s := claiming ph .holdoff .normal k
      (s.chan 0).phase = ph ∧ (s.chan 0).meas = some ⟨0, 0, 4, 2⟩ ∧ heldEntry 0 s = some heldNow ∧ heldNow.target = 0 ∧
        s.line.onLine.any (fun f => f.frame.isFor .claim 0) = (k == .claim)) ∧
    (∀ o ∈ [StopOutcome.cancelled, .portDisabled, .preempted, .withdrawn], ∀ st ∈ [ShotStage.gap, .capture, .recovery],
      ((shooting st 1 (some o)).chan 0).phase = .bursting ∧ ((shooting st 1 (some o)).chan 0).stage = st ∧
        ((shooting st 1 (some o)).chan 0).stop = some o) := by
  decide +kernel

/-- Table 5-6 and R96: a CANCEL, then a DISABLE, taken in an open capture end as PORT_DISABLED; a PREEMPTED stop in a gap gives the
entry back. -/
theorem test_stops_in_a_burst :
    let s := stopChannel 0 .portDisabled (stopChannel 0 .cancelled (shooting .capture 1 none))
    let t := after (.captureClose 0 ⟨[], [], [], []⟩) s
    (s.chan 0).stop = some .portDisabled ∧ (t.port 0).store.attempt = some .portDisabled ∧ (t.chan 0).phase = .releasing ∧
      (stopChannel 0 .preempted (shooting .gap 1 none)).queue = [{ heldNow with holder := none }] ++ measuring.queue.drop 1 := by
  decide +kernel

/-- Section 9.10.3: the view of station 0. -/
def judgedView : State :=
  { running with
    station := { running.station with geometry := .stacked }
    view := [⟨3, 12, true, 36, .normal, 17, 0, 9000⟩, ⟨3, 13, true, 47, .normal, 17, 0, 9000⟩,
      ⟨5, 3, true, 71, .background, 17, 0, 9000⟩] }

def keysAfter (src : BitVec 4) (number target priority : Byte) : List (StationNo × Byte) :=
  (after (.claimTaken src number target priority 17) judgedView).view.map (fun v => (v.station, v.number))

/-- Section 9.10.3, its five rows. -/
theorem test_judgements_in_one_view :
    keysAfter 4 20 49 1 = [(3, 12), (3, 13), (5, 3)] ∧ keysAfter 2 9 34 1 = [(3, 13), (5, 3), (2, 9)] ∧
    keysAfter 6 1 73 0 = [(3, 12), (3, 13), (5, 3), (6, 1)] ∧ keysAfter 6 2 73 1 = [(3, 12), (3, 13), (6, 2)] ∧
    keysAfter 1 30 17 2 = [(3, 12), (3, 13), (5, 3), (1, 30)] := by
  decide

theorem witness_ForeignClaims :
    FrameReady judgedView ∧ stationOf 7 = some 7 ∧ (7 : StationNo) ≠ judgedView.station.number ∧ 96 ≤ (96 : Byte).toNat ∧
    3 ≤ (3 : Byte).toNat ∧ globalPortOf 95 = some 95 ∧ priorityOf 2 = some .background ∧
    (∃ v ∈ judgedView.view, ¬(v.station = 4 ∧ v.number = 20) ∧ conflicts judgedView.station.geometry 49 v.target = true ∧
      judge .normal 4 v.priority v.station = .newLoses) ∧
    (∀ v ∈ judgedView.view, ¬(v.station = 2 ∧ v.number = 9) → conflicts judgedView.station.geometry 34 v.target = true →
      judge .normal 2 v.priority v.station ≠ .newLoses) ∧ (∀ ch, (judgedView.chan ch).claim = none) ∧
    (judgedView.view.length < 16 ∧ 16 ≤ (List.replicate 16 neighbourEntry).length) ∧
    (∃ v ∈ measuring.view, v.station = 1 ∧ v.number = 3 ∧ v.active = false) := by
  refine ⟨(ready _ rfl).2, by decide, by decide, by decide, by decide, by decide, by decide,
    ⟨⟨3, 13, true, 47, .normal, 17, 0, 9000⟩, by decide⟩, by decide, by decide, by decide,
    ⟨⟨1, 3, false, 20, .normal, 2, 500, 1628⟩, by decide⟩⟩

/-- Channel 0 alone, with a claim of this phase, state and priority, and an empty view. -/
def struck (ph : Phase) (st : ClaimState) (pri : Priority) : State :=
  { (claiming ph st pri .report).modChan 1 (fun _ => Channel.fresh) with
    line := running.line, view := [], station := { running.station with number := 4 } }

theorem witness_StandingClaims :
    FrameReady (struck .claiming .holdoff .background) ∧
    (∀ ph ∈ [Phase.claiming, .waitYield, .bursting, .releasing],
      ∀ st ∈ [ClaimState.queued, .holdoff, .waitYield, .active, .releasing], ∀ pri ∈ [Priority.urgent, .normal, .background],
      let s := struck ph st pri
      (s.chan 0).phase = ph ∧ (s.chan 0).claim = some { activeNow with state := st, priority := pri } ∧ s.view = [] ∧
        (s.chan (otherChannel 0)).claim = none ∧ s.station.number = 4) ∧
    conflicts (struck .claiming .holdoff .normal).station.geometry 1 0 = true ∧ stationOf 3 = some 3 ∧
    (judge .urgent 3 .background 4 = .knownYields ∧ judge .normal 3 .normal 4 = .knownLoses ∧
      judge .background 3 .urgent 4 = .newYields ∧ judge .normal 5 .normal 4 = .newLoses) ∧
    (let view := [neighbourEntry, { neighbourEntry with station := 3, number := 8 }]
     view.filter (fun v => decide (¬(v.station = 3 ∧ v.number = 8))) = [neighbourEntry] ∧
       conflicts .singleRow 1 neighbourEntry.target = true ∧
       judge .normal 3 neighbourEntry.priority neighbourEntry.station = .newLoses ∧
       judge .urgent 3 .background 1 = .knownYields ∧
       conflicts .singleRow 2 activeNow.target = false ∧ conflicts .singleRow 2 neighbourEntry.target = true ∧
       conflicts .singleRow 3 activeNow.target = false ∧ conflicts .singleRow 3 neighbourEntry.target = false) := by
  exact ⟨(ready _ rfl).2, by decide +kernel⟩

/-- Both channels hold claims, of port 0 and of port 1's neighbour 2. -/
def struckTwice (a b : ClaimState) (pri : Priority) : State :=
  { (claiming .bursting a pri .report).modChan 1 (fun c => { c with
      claim := some ⟨2, b, 2, pri, 2, ⟨false, 0, 0⟩, ⟨false, 0, 0⟩⟩ }) with
    line := running.line, view := [], station := { running.station with number := 4 } }

theorem witness_TwoClaimsStruck :
    FrameReady (struckTwice .active .holdoff .normal) ∧ stationOf 3 = some 3 ∧ (3 : StationNo) ≠ 4 ∧
    (∀ a ∈ [ClaimState.queued, .holdoff, .active, .releasing], ∀ b ∈ [ClaimState.queued, .holdoff, .active, .releasing],
      ∀ pri ∈ [Priority.urgent, .normal, .background], let s := struckTwice a b pri
      (s.chan 0).claim = some { activeNow with state := a, priority := pri } ∧
        (s.chan 1).claim = some ⟨2, b, 2, pri, 2, ⟨false, 0, 0⟩, ⟨false, 0, 0⟩⟩ ∧ s.view = [] ∧ s.station.number = 4) ∧
    ([1, 0, 3].map (fun g => (conflicts .singleRow g 0, conflicts .singleRow g 2)) = [(true, true), (true, false), (false, true)]) ∧
    judge .urgent 3 .background 4 = .knownYields ∧ judge .normal 3 .normal 4 = .knownLoses ∧
    judge .background 3 .urgent 4 = .newYields ∧ judge .normal 5 .normal 4 = .newLoses := by
  exact ⟨(ready _ rfl).2, by decide +kernel⟩

/-- R165: one CLAIM between two ACTIVE claims withdraws both, channel 0's RELEASE first. -/
theorem test_one_claim_strikes_both :
    let t := after (.claimTaken 3 7 1 1 5) (struckTwice .active .active .normal)
    (t.chan 0).phase = .releasing ∧ (t.chan 1).phase = .releasing ∧
      t.line.list.map (fun f => (f.kind, f.channel)) = [(.release, some 0), (.release, some 1)] := by
  decide +kernel

theorem witness_ViewEntries :
    FrameReady measuring ∧ stationOf 1 = some 1 ∧ (1 : StationNo) ≠ measuring.station.number ∧
    (∃ v ∈ measuring.view, v.station = 1 ∧ v.number = 3 ∧ v.target.val = (20 : Byte).toNat) ∧
    (∀ v ∈ measuring.view, ¬(v.station = 1 ∧ v.number = 3 ∧ v.target.val = (21 : Byte).toNat)) := by
  refine ⟨?_, by decide, by decide, ⟨⟨1, 3, false, 20, .normal, 2, 500, 1628⟩, by decide⟩, by decide⟩
  unfold FrameReady
  decide

def alertFrame : Frame := ⟨.alert, [], none, false⟩

/-- The station sends a frame, these bits of it read so far. -/
def sending (f : Frame) (heard : List Bool) : State :=
  { measuring with line := { measuring.line with
    condition := .busy, idleCount := 0, assembler := .receiving, heard := heard
    onLine := (some ⟨f, frameBits (frameKindCode f.kind) 3 15 f.payload, heard.length⟩) } }

/-- The ALERT of station 3 read up to a position, the last bit as `last`. -/
def alertHeard (n : Nat) (last : Bool) : List Bool := (frameBits 6 3 15 []).take (n - 1) ++ [last]

theorem witness_Frames :
    (let s := { measuring with line := { measuring.line with onLine := none } }
     s.line.onLine = none ∧ s.line.assembler = .ready ∧ s.line.idleCount = 11 ∧ s.line.condition = .idle ∧
       s.line.listenIn.running = false ∧ s.station.phase ≠ .listen ∧
       s.line.list = ⟨.rejoin, [0], none, false⟩ :: measuring.line.list.drop 1) ∧
    ({ measuring with line := { measuring.line with idleCount := 10 } } : State).line.idleCount ≠ 11 ∧
    (∀ n ∈ [3, 9, 10, 25], let s := sending alertFrame (alertHeard n false)
     s.line.heard.getLast? = some false ∧ s.line.heard.length = n ∧
       (frameBits 6 3 15 [])[s.line.heard.length - 1]? = some true ∧ alertFrame.payload.length ≤ 15) ∧
    (∀ n ∈ [(3, true), (9, true), (10, true), (25, true), (1, false), (27, false), (28, true), (29, true)],
      let s := sending alertFrame ((frameBits 6 3 15 []).take (n.1 - 1))
      s.line.heard.length + 1 = n.1 ∧ (frameBits 6 3 15 [])[n.1 - 1]? = some n.2 ∧
        ¬(s.line.heard.getLast? = some false ∧ (frameBits 6 3 15 [])[s.line.heard.length - 1]? = some true)) ∧
    (∀ k ∈ [FrameKind.report, .alert, .rejoin], ∀ b ∈ [false, true],
      ((sending ⟨k, [1, 0], none, b⟩ [false]).line.onLine.any (fun o => o.frame.kind == k && o.frame.retried == b)) = true) ∧
    (let s := sending ⟨.claim, [2, 5, 1, 2], some 1, false⟩ [false]
     (s.chan 1).stop = none ∧ (s.chan 1).claim.any (fun l => l.state == .queued) = true ∧ (s.chan 1).meas = some ⟨5, 5, 4, 2⟩) ∧
    ((claiming .releasing .releasing .normal .release).chan 0).phase = .releasing := by
  decide +kernel

/-- Sections 8.3.1 and 8.5: the ALERT of station 3 is 0x63, 0xF0, 0x14; a start bit of another station from idle makes the line BUSY
and the assembler RECEIVING; the bits assemble the frame; a dominant spacer or a wrong check is objected to. -/
theorem test_alert_bit_by_bit :
    let l := (frameBits 6 3 15 []).foldl (fun k b => readBit b k) running.line
    l.heard = [false, false, true, true, false, false, false, true, true, true, true, true, true, true, false, false, false, false,
      true, false, false, false, true, false, true, false, false, true, true] ∧
    frameRead l.heard = ⟨6, 3, 15, []⟩ ∧ checkRead l.heard = 0x14 ∧ l.check = 0x14 ∧ l.idleCount = 1 ∧
    (readBit false running.line).condition = .busy ∧ (readBit false running.line).assembler = .receiving ∧
    bitsToCheck [0x63, 0xF0] 0x14 [true, true] = (frameBits 6 3 15 []).take 27 ∧
    (∀ c ∈ [Instr.receiveCheckFailure [0x63, 0xF0] 0x15 [true, true], .receiveCheckFailure [0x63, 0xF0] 0x14 [true, false]],
      (after c running).line.objecting = true ∧ (after c running).counters.checkFailures = 1) ∧
    (after (.receiveCheckFailure [0x63, 0xF0] 0x14 [true, true]) running).counters.checkFailures = 0 ∧
    (after .arbitrationLoss (sending alertFrame (alertHeard 9 false))).counters.arbitrationLosses = 1 ∧
    (after .arbitrationLoss (sending alertFrame (alertHeard 10 false))).counters.arbitrationLosses = 0 ∧
    (after .transmitFault (sending alertFrame (alertHeard 10 false))).line.list.map Frame.kind = [.rejoin, .claim, .report] := by
  decide +kernel

theorem witness_Departures :
    (∀ k ∈ [FrameKind.report, .alert, .rejoin], ∀ d ∈ departureBits,
      (ownOnLine k).frame.kind = k ∧
        ∃ t, FrameLeaves d.1 (ownOnLine k) (readTo d.2.1 d.2.2 (claiming .claiming .queued .normal k)) t) ∧
    (∀ n ∈ [1, 62, 65], let s := readTo n true (claiming .claiming .queued .normal .claim)
     s.line.onLine = some (ownOnLine .claim) ∧ s.line.heard.length = n ∧ (ownOnLine .claim).bits.length = 65) ∧
    (∀ n ∈ [(8, 9, some false), (14, 15, some false), (63, 64, some true)],
      let s := readTo n.1 true (claiming .claiming .queued .normal .claim)
      s.line.onLine = some (ownOnLine .claim) ∧ s.line.heard.getLast? = some true ∧ s.line.heard.length + 1 = n.2.1 ∧
        payloadLength (ownOnLine .claim).bits = 4 ∧ (ownOnLine .claim).bits[n.2.1 - 1]? = n.2.2) ∧
    (∀ level ∈ [false, true], let s := sending alertFrame (alertHeard 28 level)
     s.pending = [] ∧ s.line.condition ≠ .stuck ∧ s.line.dominantRun < 65 ∧ s.line.heard.length + 1 = (frameBits 6 3 15 []).length ∧
       s.line.heard.getLast? = some level ∧ due s = some (.alertDeparture (if level then .sent else .voided))) ∧
    (let s := { measuring with line := { measuring.line with condition := .stuck } }
     s.line.condition = .stuck ∧ s.line.onLine = none ∧ ∃ f ∈ s.line.list, f.kind = .report) ∧
    (let s := { measuring.modChan 0 (fun c => { c with phase := .releasing }) with line := { running.line with
       listenIn := ⟨true, 0, 20000⟩, list := [⟨.release, [1, 0], some 0, false⟩] } }
     s.line.listenIn.running = true ∧ (s.chan 0).phase = .releasing ∧ ∃ f ∈ s.line.list, f.isFor .release 0 = true) ∧
    (∀ b ∈ [false, true], ([⟨.rejoin, [0], none, b⟩] : List Frame).find? (fun x => x.kind == .rejoin) =
      some ⟨.rejoin, [0], none, b⟩) := by
  refine ⟨fun k hk d hd => ⟨by revert k; decide, exists_frameLeaves rfl (departs k d hd)⟩, by decide +kernel,
    by decide +kernel, by decide +kernel,
    ⟨by decide, by decide, ⟨.report, [1, 0], none, false⟩, by decide, by decide⟩,
    ⟨by decide, by decide, ⟨.release, [1, 0], some 0, false⟩, by decide, by decide⟩, by decide⟩

theorem witness_LineTrouble :
    (running.line.onLine = none ∧ running.line.assembler ≠ .receiving ∧ running.line.condition ≠ .stuck ∧ running.line.heard = []) ∧
    (∀ ph ∈ [Phase.idle, .bursting, .releasing, .preparing, .claiming, .waitYield],
      let s := claiming ph .holdoff .normal .report
      (s.chan 0).phase = ph ∧ (s.chan 0).meas = some ⟨0, 0, 4, 2⟩ ∧ heldEntry 0 s = some heldNow ∧ s.line.condition ≠ .stuck) ∧
    (∀ n ∈ [63, 64], ({ running with line := { running.line with
      condition := .busy, idleCount := 10, dominantRun := n } } : State).line.dominantRun = n) ∧
    (let l := { running.line with assembler := .ready, heard := frameBits 6 3 15 [] }
     18 ≤ l.heard.length ∧ 29 + 9 * payloadLength l.heard ≤ l.heard.length) ∧
    ({ running with line := { running.line with condition := .stuck } } : State).line.condition = .stuck ∧
    ({ running with line := { running.line with listenIn := ⟨true, 0, 20000⟩ } } : State).line.listenIn.running = true := by
  decide +kernel

theorem witness_OwnNumber :
    FrameReady running ∧ running.line.duplicate = false ∧
    ({ running with line := { running.line with duplicate := true } } : State).line.duplicate = true ∧
    (∀ f ∈ ([⟨4, 8, 0, [1]⟩, ⟨0, 14, 15, [0]⟩, ⟨3, 1, 15, []⟩, ⟨5, 15, 15, [1]⟩, ⟨2, 1, 14, [0, 0, 0, 1]⟩, ⟨0, 15, 15, [0]⟩,
        ⟨0, 1, 15, [0, 0]⟩, ⟨1, 7, 15, [0]⟩, ⟨2, 1, 15, [0, 0, 0, 1, 0]⟩, ⟨4, 15, 1, [1]⟩, ⟨4, 15, 0, []⟩, ⟨4, 1, 15, [1]⟩] :
      List RxFrame), f.source.toNat ≠ running.station.number.val ∧
        ((8 ≤ f.source.toNat ∧ f.source.toNat ≤ 14) ∨ f.kind = 3 ∨ 5 ≤ f.kind.toNat ∨
          (f.kind.toNat < 3 ∧ (f.source = 15 ∨ f.dest ≠ 15 ∨
            f.payload.length ≠ (if f.kind = 0 then 1 else if f.kind = 1 then 2 else 4))) ∨
          (f.kind = 4 ∧ (f.source ≠ 15 ∨ f.payload = [] ∨ (f.dest ≠ 15 ∧ f.dest.toNat ≠ running.station.number.val))))) := by
  refine ⟨requestReady_running.2.2.2, by decide⟩

theorem witness_CheckByte : FrameReady running ∧ running.line.heard = [] ∧ running.counters.checkFailures ≠ 65535 ∧
    (List.replicate 15 (0 : Byte)).length ≤ 15 :=
  ⟨requestReady_running.2.2.2, by decide⟩

/-- The line has read these bits from its idle. -/
def heardOnLine (bits : List Bool) : State := { running with line := hearBits bits running.line }

/-- The ALERT of station 3 with its bit at a position changed. -/
def alertFlipped (n : Nat) : List Bool := (frameBits 6 3 15 []).modify (n - 1) not

theorem witness_FramesAreRead :
    (running.line.condition = .idle ∧ running.line.idleCount = 11 ∧ running.line.assembler = .ready ∧ running.line.heard = [] ∧
      running.line.check = 0 ∧ running.line.spacerFault = false) ∧
    FrameReady running ∧
    (∀ k ∈ [((0x15 : Byte), true), (0x14, false), (0x14, true)],
      let bits := bitsToCheck [0x63, 0xF0] k.1 [k.2, true]
      fieldAt bits 15 4 = 0 ∧ FrameReady (heardOnLine bits) ∧
        (heardOnLine bits).line.heard = bits ∧ (heardOnLine bits).line.assembler = .receiving ∧
        (heardOnLine bits).line.check = crc8 [0x63, 0xF0] ∧ (heardOnLine bits).line.spacerFault = !k.2) ∧
    (∀ bits ∈ [alertFlipped 28, frameBits 6 3 15 []], let s := heardOnLine bits
      s.pending = [] ∧ FrameReady s ∧ s.line.dominantRun < 65 ∧ 18 ≤ s.line.heard.length ∧
        29 + 9 * payloadLength s.line.heard ≤ s.line.heard.length) ∧
    (heardOnLine (alertFlipped 28)).line.heard[27]? = some false ∧ (heardOnLine (frameBits 6 3 15 [])).line.heard[27]? = some true ∧
    stationOf 3 = some 3 := by
  unfold FrameReady
  decide +kernel

theorem witness_MissingBytes :
    ∀ payload ∈ ([[], [1, 0, 0, 0, 4], [3, 0], [9, 0], [4, 0], [4, 0, 2], [4, 0, 3, 15], [5], [5, 7], [5, 2, 0], [5, 4, 0, 0], [6],
      [6, 27], [6, 25, 0], [6, 4, 0, 0]] : List (List Byte)), BytesMissing payload := by
  unfold BytesMissing
  decide +kernel

/-- Tables 10-1 and 10-4 and section 11.4: a row of each kind of request. -/
theorem test_requests_are_their_rows :
    requestCommand false [7] = .lock ⟨false, []⟩ ∧ requestCommand true [8, 1] = .calibrate ⟨true, [1]⟩ ∧
    requestCommand false [6, 4, 11, 0x12, 0x34, 9] = .setupSegmentEntry ⟨false, [9]⟩ 3 11 0x12 0x34 ∧
    requestCommand false [6, 27, 50, 9] = .setup ⟨false, [9]⟩ 27 [50] ∧ requestCommand false [6, 28, 50] = .setup ⟨false, [50]⟩ 28 [] ∧
    requestCommand false [3, 2, 0b11] = .cancelSweep ⟨false, []⟩ true 2 0 ∧
    requestCommand false [9, 2, 0] = .badKindRequest false [9, 2, 0] := by
  decide +kernel

/-- Table 5-7 and R98: a RESET PORT keeps settled and shots launched, a giving back returns shots launched to 0. -/
theorem test_stops_keep_what_the_table_keeps :
    let c := { Channel.fresh with settled := true, stage := .recovery, launched := 9, results := [(.A, notMeasured)] }
    ((stopMeasurement .cancelled c).settled, (stopMeasurement .cancelled c).launched, (stopMeasurement .cancelled c).results) =
      (true, 9, []) ∧
    ((stopMeasurement .withdrawn c).launched, (burstMeasurement (.complete 0 (PerPair.const notMeasured)) c).launched) = (0, 9) := by
  decide +kernel

/-- The delays of the first decimetres of `exampleTable`, summed. -/
def exampleTau : Nat → Nat
  | 0 => 0
  | d + 1 => exampleTau d + if d < 30 then 5200 else if d < 850 then 5300 else 5200

theorem witness_SegmentWalk :
    (∀ i : Fin 8, 3500 ≤ Setup.default.delay[i]) ∧ TableOk exampleTable ∧ exampleTau 0 = 0 ∧
    (∀ (d : Nat) (i : Fin 4) (k : Fin 8), exampleTable[i].cls = k.val →
      (d < exampleTable[i].boundary ∨ exampleTable[i].boundary = exampleTable[3].boundary) →
      (∀ j : Fin 4, j < i → exampleTable[j].boundary ≤ d ∧ exampleTable[j].boundary ≠ exampleTable[3].boundary) →
      exampleTau (d + 1) = exampleTau d + Setup.default.delay[k]) ∧
    TableOk ⟨#[⟨0, 7, false⟩, ⟨0, 0, false⟩, ⟨0, 0, false⟩, ⟨0, 0, false⟩], rfl⟩ := by
  refine ⟨by decide, by unfold TableOk; decide, rfl, ?_, by unfold TableOk; decide⟩
  intro d i k hk hd hj
  have h0 := hj 0
  have h1 := hj 1
  have h2 := hj 2
  match i with
  | 0 =>
    obtain rfl : (2 : Fin 8) = k := Fin.ext hk
    have : d < 30 := hd.resolve_right (by decide)
    simp only [exampleTau, if_pos this]
    rfl
  | 1 =>
    obtain rfl : (3 : Fin 8) = k := Fin.ext hk
    have a : 30 ≤ d := (h0 (by decide)).1
    have b : d < 850 := hd.resolve_right (by decide)
    simp only [exampleTau, if_neg (Nat.not_lt.mpr a), if_pos b]
    rfl
  | 2 =>
    obtain rfl : (2 : Fin 8) = k := Fin.ext hk
    have a : 30 ≤ d := (h0 (by decide)).1
    have b : 850 ≤ d := (h1 (by decide)).1
    simp only [exampleTau, if_neg (Nat.not_lt.mpr a), if_neg (Nat.not_lt.mpr b)]
    rfl
  | 3 => exact absurd rfl (h2 (by decide)).2

/-- R112, R187: the sum is exact and truncates once: 1 dm at 3509 and then 3500 gives 14 dm at 5250. -/
theorem test_walk_truncates_once :
    segmentWalk ⟨#[3509, 3500, 5200, 5300, 5400, 5500, 5600, 5700], rfl⟩
      ⟨#[⟨1, 0, false⟩, ⟨20, 1, false⟩, ⟨20, 1, false⟩, ⟨20, 1, false⟩], rfl⟩ 5250 = 14 := by
  decide

/-- A weighed echo of section 6.8, and the listening echoes there. -/
def nearJunction : WorkEcho := weighEcho exampleSettings 22 1400 ⟨89, 200⟩

def crossing : WorkEcho := { weighEcho exampleSettings 22 1400 ⟨1000, -520⟩ with clamped := false }

def listeningEchoes : List (Pair × List RawEcho) := [(.A, [⟨1003, 260⟩]), (.C, [⟨995, -420⟩]), (.D, [⟨1010, 500⟩])]

theorem witness_PairResults :
    TableOk exampleTable ∧ listeningEchoes.Pairwise (fun a b => a.1 ≠ b.1) ∧
    (exampleTable[(0 : Fin 4)].junction = true ∧ 0 < exampleTable[(0 : Fin 4)].boundary ∧
      nearJunction.distance ≤ exampleTable[(0 : Fin 4)].boundary + 15 ∧
      exampleTable[(0 : Fin 4)].boundary ≤ nearJunction.distance + 15 ∧ nearJunction.ratio.natAbs < exampleSettings.junctionLimit ∧
      ∀ j : Fin 4, j ≠ 0 → nearJunction.distance + 15 < exampleTable[j].boundary) ∧
    ((∀ i : Fin 4, crossing.distance + 15 < exampleTable[i].boundary ∨ exampleTable[i].boundary + 15 < crossing.distance) ∧
      crossing.ratio ≤ -(exampleSettings.mismatch : Int) ∧ (995 ≤ crossing.arrival + 8 ∧ crossing.arrival ≤ 995 + 8) ∧
      exampleSettings.cross ≤ (max (-64) (min 64 (Int.tdiv ((max (-2047) (min 2047
        (Int.tdiv (-420 * (256 + (exampleSettings.alpha * crossing.distance / 16 : Nat))) 256))) * 64) 1400)) : Int).natAbs) ∧
    (-(exampleSettings.mismatch : Int) < (weighEcho exampleSettings 22 1400 ⟨1850, 900⟩).ratio) := by
  unfold TableOk
  decide +kernel

theorem witness_Echoes :
    (interleave ⟨[1], [2], [3], [4]⟩ = [1, 2, 3, 4]) ∧ ([5, 6] : List Int)[1]? = some 6 ∧
    (crossing.distance < nearJunction.distance + 5 ∨ nearJunction.distance + 5 ≤ crossing.distance) ∧
    (let kept := weighEcho exampleSettings 22 1400 ⟨1000, -300⟩
     let e := weighEcho exampleSettings 22 1400 ⟨1008, -520⟩
     e.distance < kept.distance + 5 ∧ kept.peak.natAbs < e.peak.natAbs ∧
       (weighEcho exampleSettings 22 1400 ⟨1008, -200⟩).peak.natAbs ≤ kept.peak.natAbs) ∧
    256 ≤ greatest (((interleave ⟨[0, 300], [0, 256], [0, 0], [0, 0]⟩).drop 2).take 16) := by
  decide +kernel

end Sys2Proof.Tests
end

