-- ==== Sys2Proof/Proofs/EchoDetection.lean ====
section
/-! SUPPORT. Chapter 6 from the captured samples to the merged echoes: the shape of the quarter-tick record and of the residual,
the runs that the detection scan cuts out of a residual, the weighing of an echo and the merge of close ones. -/

namespace Sys2Proof.Machine.Distance

/-! ### Saturation (section 5.1) -/

theorem clampInt_eq_max_min {lo hi : Int} (h : lo ≤ hi) (n : Int) : clampInt lo hi n = max lo (min hi n) := by
  unfold clampInt
  split
  · omega
  · split <;> omega

theorem compensated_eq (alpha d : Nat) (peak : Int) :
    compensated alpha d peak = max (-2047) (min 2047 (Int.tdiv (peak * (256 + (alpha * d / 16 : Nat))) 256)) :=
  clampInt_eq_max_min (by decide) _

theorem ratioOf_eq (ac launch : Int) : ratioOf ac launch = max (-64) (min 64 (Int.tdiv (ac * 64) launch)) :=
  clampInt_eq_max_min (by decide) _

/-! ### The record and the residual (R105, R106) -/

/-- Position 4t + k of the interleaving of four lists of one length holds position t of list k. -/
theorem interleaveLists_spec (w : Nat) : ∀ s0 s1 s2 s3 : List Int,
    s0.length = w → s1.length = w → s2.length = w → s3.length = w →
    (interleaveLists s0 s1 s2 s3).length = 4 * w ∧ ∀ i, i < w →
      (interleaveLists s0 s1 s2 s3)[4 * i]? = s0[i]? ∧ (interleaveLists s0 s1 s2 s3)[4 * i + 1]? = s1[i]? ∧
        (interleaveLists s0 s1 s2 s3)[4 * i + 2]? = s2[i]? ∧ (interleaveLists s0 s1 s2 s3)[4 * i + 3]? = s3[i]? := by
  induction w with
  | zero =>
    intro s0 s1 s2 s3 h0 _ _ _
    obtain rfl := List.length_eq_zero_iff.mp h0
    exact ⟨rfl, fun i hi => absurd hi (Nat.not_lt_zero i)⟩
  | succ w ih =>
    intro s0 s1 s2 s3 h0 h1 h2 h3
    obtain ⟨_, r0, rfl⟩ := List.exists_cons_of_length_eq_add_one h0
    obtain ⟨_, r1, rfl⟩ := List.exists_cons_of_length_eq_add_one h1
    obtain ⟨_, r2, rfl⟩ := List.exists_cons_of_length_eq_add_one h2
    obtain ⟨_, r3, rfl⟩ := List.exists_cons_of_length_eq_add_one h3
    obtain ⟨hlen, hat⟩ := ih r0 r1 r2 r3 (Nat.succ.inj h0) (Nat.succ.inj h1) (Nat.succ.inj h2) (Nat.succ.inj h3)
    refine ⟨by simp only [interleaveLists, List.length_cons, hlen]; omega, fun i hi => ?_⟩
    cases i with
    | zero => exact ⟨rfl, rfl, rfl, rfl⟩
    | succ i => exact hat i (Nat.lt_of_succ_lt_succ hi)

theorem length_residual (record template : List Int) : (residual record template).length = record.length := by
  induction record, template using residual.induct with
  | case1 s ss t ts ih => simp only [residual, List.length_cons, ih]
  | case2 record template h => rw [residual.eq_2 _ _ h]

theorem residual_getElem? (record template : List Int) {i : Nat} {x : Int} (hx : record[i]? = some x) :
    (residual record template)[i]? = some (x - template.getD i 0) := by
  induction record, template using residual.induct generalizing i with
  | case1 s ss t ts ih =>
    cases i with
    | zero =>
      obtain rfl : s = x := by simpa using hx
      rfl
    | succ i => exact ih hx
  | case2 record template h =>
    rw [residual.eq_2 _ _ h]
    match record, template, h with
    | [], _, _ => simp at hx
    | _ :: _, [], _ => simpa using hx
    | s :: ss, t :: ts, h => exact (h s ss t ts rfl rfl).elim

/-! ### The runs of a residual (R108) -/

/-- R108 steps 2 and 3: a value goes on with a run that the value `first` started. -/
def GoesOn (thr : Nat) (first x : Int) : Prop := thr / 2 ≤ x.natAbs ∧ (0 < x ↔ 0 < first)

/-- The quarter-ticks from the arrival of `e` up to `stop` form a run, at its end or not, and `e` holds its peak so far. -/
structure IsRun (thr : Nat) (r : List Int) (stop : Nat) (e : RawEcho) : Prop where
  arrival_lt : e.arrival < stop
  stop_le : stop ≤ r.length
  threshold : thr ≤ (r.getD e.arrival 0).natAbs
  goesOn : ∀ q, e.arrival < q → q < stop → GoesOn thr (r.getD e.arrival 0) (r.getD q 0)
  peak_mem : ∃ q, e.arrival ≤ q ∧ q < stop ∧ e.peak = r.getD q 0
  peak_max : ∀ q, e.arrival ≤ q → q < stop → (r.getD q 0).natAbs ≤ e.peak.natAbs

/-- The run of a detected echo, as its first quarter-tick and the one after its last: it cannot go on any further. -/
def IsEchoRun (thr start : Nat) (r : List Int) (run : Nat × Nat) (e : RawEcho) : Prop :=
  start ≤ run.1 ∧ e.arrival = run.1 ∧ IsRun thr r run.2 e ∧
    (run.2 < r.length → ¬GoesOn thr (r.getD run.1 0) (r.getD run.2 0))

/-- The echoes are those of the runs, in order and apart, and no quarter-tick from `start` on that reaches the threshold is
outside them. -/
structure DetectedRuns (thr start : Nat) (r : List Int) (runs : List (Nat × Nat)) (es : List RawEcho) : Prop where
  apart : runs.Pairwise (fun a b => a.2 ≤ b.1)
  echoes : List.Forall₂ (IsEchoRun thr start r) runs es
  covered : ∀ q, start ≤ q → q < r.length → thr ≤ (r.getD q 0).natAbs → ∃ run ∈ runs, run.1 ≤ q ∧ q < run.2

section
variable {thr start stop q : Nat} {r : List Int} {e : RawEcho} {runs : List (Nat × Nat)} {es : List RawEcho}

theorem IsRun.first (hq : q < r.length) (ht : thr ≤ (r.getD q 0).natAbs) : IsRun thr r (q + 1) ⟨q, r.getD q 0⟩ where
  arrival_lt := Nat.lt_succ_self q
  stop_le := hq
  threshold := ht
  goesOn i hi hi' := by change q < i at hi; omega
  peak_mem := ⟨_, le_rfl, Nat.lt_succ_self _, rfl⟩
  peak_max i hi hi' := by
    obtain rfl : q = i := Nat.le_antisymm hi (Nat.le_of_lt_succ hi')
    exact le_rfl

/-- The scan reads the sign of a run off its peak, which has the sign of its first value. -/
theorem IsRun.peak_pos_iff (h : IsRun thr r stop e) : 0 < e.peak ↔ 0 < r.getD e.arrival 0 := by
  obtain ⟨q, hq, hq', hpeak⟩ := h.peak_mem
  rw [hpeak]
  obtain rfl | hlt := hq.eq_or_lt
  · exact Iff.rfl
  · exact (h.goesOn q hlt hq').2

theorem IsRun.extend (h : IsRun thr r q e) (hq : q < r.length) (hg : GoesOn thr (r.getD e.arrival 0) (r.getD q 0)) :
    IsRun thr r (q + 1) (if e.peak.natAbs < (r.getD q 0).natAbs then ⟨e.arrival, r.getD q 0⟩ else e) := by
  have hlt := h.arrival_lt
  have hgoes : ∀ i, e.arrival < i → i < q + 1 → GoesOn thr (r.getD e.arrival 0) (r.getD i 0) := fun i hi hi' =>
    (Nat.lt_succ_iff_lt_or_eq.mp hi').elim (h.goesOn i hi) (fun heq => heq ▸ hg)
  split
  next hgt =>
    refine ⟨by simpa using Nat.lt_succ_of_lt hlt, hq, h.threshold, hgoes, ⟨q, hlt.le, Nat.lt_succ_self q, rfl⟩, ?_⟩
    intro i hi hi'
    obtain hi' | rfl := Nat.lt_succ_iff_lt_or_eq.mp hi'
    · exact (h.peak_max i hi hi').trans hgt.le
    · exact le_rfl
  next hle =>
    obtain ⟨i, hi, hi', hpeak⟩ := h.peak_mem
    refine ⟨Nat.lt_succ_of_lt hlt, hq, h.threshold, hgoes, ⟨i, hi, Nat.lt_succ_of_lt hi', hpeak⟩, ?_⟩
    intro i hi hi'
    obtain hi' | rfl := Nat.lt_succ_iff_lt_or_eq.mp hi'
    · exact h.peak_max i hi hi'
    · exact Nat.le_of_not_lt hle

theorem DetectedRuns.atEnd (h : r.length ≤ start) : DetectedRuns thr start r [] [] where
  apart := .nil
  echoes := .nil
  covered _ hq hq' := absurd (h.trans hq) (Nat.not_le.mpr hq')

theorem DetectedRuns.skip (h : DetectedRuns thr (q + 1) r runs es) (hq : ¬thr ≤ (r.getD q 0).natAbs) :
    DetectedRuns thr q r runs es where
  apart := h.apart
  echoes := h.echoes.imp fun _ _ ⟨hs, hrun⟩ => ⟨Nat.le_of_succ_le hs, hrun⟩
  covered i hi hi' ht := h.covered i (Nat.lt_of_le_of_ne hi fun heq => hq (heq ▸ ht)) hi' ht

theorem start_le_of_isEchoRun (h : List.Forall₂ (IsEchoRun thr start r) runs es) : ∀ run ∈ runs, start ≤ run.1 := by
  induction h with
  | nil => simp
  | cons hrun _ ih =>
    simp only [List.mem_cons, forall_eq_or_imp]
    exact ⟨hrun.1, ih⟩

theorem DetectedRuns.cons (h : DetectedRuns thr q r runs es) (hrun : IsRun thr r q e)
    (hend : q < r.length → ¬GoesOn thr (r.getD e.arrival 0) (r.getD q 0)) :
    DetectedRuns thr e.arrival r ((e.arrival, q) :: runs) (e :: es) where
  apart := .cons (start_le_of_isEchoRun h.echoes) h.apart
  echoes := .cons ⟨le_rfl, rfl, hrun, hend⟩
    (h.echoes.imp fun _ _ ⟨hs, rest⟩ => ⟨hrun.arrival_lt.le.trans hs, rest⟩)
  covered i hi hi' ht := by
    by_cases hiq : i < q
    · exact ⟨_, List.mem_cons_self, hi, hiq⟩
    · obtain ⟨run, hmem, hin⟩ := h.covered i (Nat.le_of_not_lt hiq) hi' ht
      exact ⟨run, List.mem_cons_of_mem _ hmem, hin⟩

end

/-- Where the runs that a scan at `q` still has to report begin. -/
def scanStart (q : Nat) : Option RawEcho → Nat
  | none => q
  | some e => e.arrival

theorem getD_of_cons_eq_drop {x : Int} {xs r : List Int} {q : Nat} (h : x :: xs = r.drop q) :
    q < r.length ∧ r.getD q 0 = x ∧ xs = r.drop (q + 1) := by
  have hq : q < r.length := by
    have := congrArg List.length h
    simp only [List.length_cons, List.length_drop] at this
    omega
  obtain ⟨hx, hxs⟩ := List.cons.inj (h.trans (List.drop_eq_getElem_cons hq))
  exact ⟨hq, by rw [hx, List.getD_eq_getElem _ _ hq], hxs⟩

/-- From any quarter-tick on, the scan reports the run in progress, if any, and the runs after it. -/
theorem scanEchoes_detectedRuns (thr : Nat) (r rest : List Int) (q : Nat) (inProgress : Option RawEcho)
    (hrest : rest = r.drop q) (hrun : ∀ e, inProgress = some e → IsRun thr r q e) :
    ∃ runs, DetectedRuns thr (scanStart q inProgress) r runs (scanEchoes thr rest q inProgress) := by
  induction rest, q, inProgress using scanEchoes.induct (thr := thr) with
  | case1 _ => exact ⟨[], .atEnd (List.drop_eq_nil_iff.mp hrest.symm)⟩
  | case2 q run =>
    have hend := List.drop_eq_nil_iff.mp hrest.symm
    exact ⟨_, (DetectedRuns.atEnd hend).cons (hrun run rfl) fun h => absurd hend (Nat.not_le.mpr h)⟩
  | case3 x xs q ht ih =>
    obtain ⟨hq, rfl, hxs⟩ := getD_of_cons_eq_drop hrest
    rw [scanEchoes, if_pos ht]
    exact ih hxs fun e he => Option.some.inj he ▸ IsRun.first hq ht
  | case4 x xs q ht ih =>
    obtain ⟨hq, rfl, hxs⟩ := getD_of_cons_eq_drop hrest
    rw [scanEchoes, if_neg ht]
    obtain ⟨runs, hruns⟩ := ih hxs nofun
    exact ⟨runs, hruns.skip ht⟩
  | case5 x xs q run hg ih =>
    obtain ⟨hq, rfl, hxs⟩ := getD_of_cons_eq_drop hrest
    have hopen := hrun run rfl
    rw [scanEchoes, if_pos hg]
    rw [hopen.peak_pos_iff] at hg
    obtain ⟨runs, hruns⟩ := ih hxs fun e he => Option.some.inj he ▸ hopen.extend hq hg
    rw [scanStart, apply_ite RawEcho.arrival, ite_self] at hruns
    exact ⟨runs, hruns⟩
  | case6 x xs q run hg ht ih =>
    obtain ⟨hq, rfl, hxs⟩ := getD_of_cons_eq_drop hrest
    have hopen := hrun run rfl
    rw [scanEchoes, if_neg hg, if_pos ht]
    rw [hopen.peak_pos_iff] at hg
    obtain ⟨runs, hruns⟩ := ih hxs fun e he => Option.some.inj he ▸ IsRun.first hq ht
    exact ⟨_, hruns.cons hopen fun _ => hg⟩
  | case7 x xs q run hg ht ih =>
    obtain ⟨hq, rfl, hxs⟩ := getD_of_cons_eq_drop hrest
    have hopen := hrun run rfl
    rw [scanEchoes, if_neg hg, if_neg ht]
    rw [hopen.peak_pos_iff] at hg
    obtain ⟨runs, hruns⟩ := ih hxs nofun
    exact ⟨_, (hruns.skip ht).cons hopen fun _ => hg⟩

theorem detectEchoes_detectedRuns (thr start : Nat) (r : List Int) :
    ∃ runs, DetectedRuns thr start r runs (detectEchoes thr start r) :=
  scanEchoes_detectedRuns thr r _ start none rfl nofun

/-! ### Weighing, merging and the pair's processing (R114 to R117) -/

theorem weighEcho_eq (st : EchoSettings) (q0 : Nat) (launch : Int) (e : RawEcho) {d : Nat} {clamped : Bool}
    (h : (d, clamped) = walkDistance st.delays st.table (oneWayTime e.arrival q0)) :
    weighEcho st q0 launch e =
      ⟨e.arrival, e.peak, d, clamped, compensated st.alpha d e.peak, ratioOf (compensated st.alpha d e.peak) launch⟩ := by
  simp only [weighEcho, ← h]

section
variable (st : EchoSettings) (launch : Int) {kept e : WorkEcho} (es : List WorkEcho)

theorem mergeClose_of_apart (h : kept.distance + 5 ≤ e.distance) :
    mergeClose st launch (kept :: e :: es) = kept :: mergeClose st launch (e :: es) := by
  simp only [mergeClose, mergeFrom, if_neg (Nat.not_lt.mpr h)]

theorem mergeClose_of_close (h : e.distance < kept.distance + 5) :
    mergeClose st launch (kept :: e :: es) = mergeClose st launch (mergeEchoes st launch kept e :: es) := by
  simp only [mergeClose, mergeFrom, if_pos h]

end

theorem mergeEchoes_of_le (st : EchoSettings) (launch : Int) {kept later : WorkEcho}
    (h : later.peak.natAbs ≤ kept.peak.natAbs) : mergeEchoes st launch kept later = kept :=
  if_neg (Nat.not_lt.mpr h)

theorem mergeEchoes_of_lt (st : EchoSettings) (launch : Int) {kept later : WorkEcho}
    (h : kept.peak.natAbs < later.peak.natAbs) :
    mergeEchoes st launch kept later = ⟨kept.arrival, later.peak, kept.distance, kept.clamped,
      compensated st.alpha kept.distance later.peak, ratioOf (compensated st.alpha kept.distance later.peak) launch⟩ :=
  if_pos h

/-- From a launch of 256 on, a pair's result is that of the detected, weighed, discarded, merged and classified echoes. -/
theorem processPair_of_launched (st : EchoSettings) (q0 : Nat) (template : List Int) (w : WorkingSet)
    (h : 256 ≤ launchAmplitude (interleave (w.samples.get w.driven)) q0) :
    processPair st q0 template w =
      resultOf (launchAmplitude (interleave (w.samples.get w.driven)) q0)
        ((mergeClose st (launchAmplitude (interleave (w.samples.get w.driven)) q0)
          (discardWeak st ((detectEchoes st.detect (q0 + blanking w.reach)
            (residual (interleave (w.samples.get w.driven)) template)).map
              (weighEcho st q0 (launchAmplitude (interleave (w.samples.get w.driven)) q0))))).map
          (classifyEcho st (launchAmplitude (interleave (w.samples.get w.driven)) q0)
            ((listeningPairs w.driven).map
              (fun x => (x, detectEchoes st.detect (q0 + blanking w.reach) (interleave (w.samples.get x))))))) :=
  if_neg (Int.not_lt.mpr h)

/-- Settles O58: one lemma for each clause; the runs are those the scan invariant `scanEchoes_detectedRuns` finds. -/
theorem echoesAreDetectedWeighedAndMerged : Obligations.EchoesAreDetectedWeighedAndMerged := by
  refine ⟨?_, ?_, ?_, ?_, ?_, ?_⟩
  case refine_1 => exact fun v w => interleaveLists_spec w v.k0 v.k1 v.k2 v.k3
  case refine_2 => exact fun record template => ⟨length_residual record template, fun _ _ => residual_getElem? record template⟩
  case refine_3 =>
    intro thr start r
    obtain ⟨runs, hruns⟩ := detectEchoes_detectedRuns thr start r
    refine ⟨runs, hruns.apart, hruns.echoes.imp ?_, hruns.covered⟩
    rintro ⟨a, b⟩ e ⟨hs, rfl, hrun, hend⟩
    exact ⟨hs, hrun.arrival_lt, hrun.stop_le, rfl, hrun.threshold, hrun.goesOn, hend, hrun.peak_mem, hrun.peak_max⟩
  case refine_4 =>
    rintro st q0 launch e d clamped ac hwalk rfl
    rw [weighEcho_eq st q0 launch e hwalk, ratioOf_eq, compensated_eq]
  case refine_5 =>
    refine fun st launch => ⟨rfl, fun _ => rfl, fun kept e es => ⟨mergeClose_of_apart st launch es, ?_, ?_⟩⟩
    · intro hclose hle
      rw [mergeClose_of_close st launch es hclose, mergeEchoes_of_le st launch hle]
    · rintro ac hclose hlt rfl
      rw [mergeClose_of_close st launch es hclose, mergeEchoes_of_lt st launch hlt, ratioOf_eq, compensated_eq]
  case refine_6 =>
    rintro st q0 template w launch start rfl hlaunch hstart
    have hblank : start = q0 + blanking w.reach := by
      rw [hstart]
      cases w.reach <;> rfl
    subst hblank
    exact processPair_of_launched st q0 template w hlaunch

end Sys2Proof.Machine.Distance
end

section
/-! SUPPORT. A peer frame that is delivered (R144), and the entries of the claim view that a RELEASE or a REJOIN takes out (R161,
R162). -/

namespace Sys2Proof.Machine

/-! ### The end of a frame leaves the claim view as it is -/

@[simp] theorem frameEnded_view (s : State) : (frameEnded s).view = s.view := rfl

@[simp] theorem frameEnded_unknownReleases (s : State) : (frameEnded s).unknownReleases = s.unknownReleases := rfl

/-- A frame that ends ready, from another station, is delivered on the state at its end bit (R144). -/
theorem takePeer_delivered {src : BitVec 4} {st : StationNo} {s : State} (h : FrameReady s) (hsrc : stationOf src = some st)
    (hother : st ≠ s.station.number) (deliver : StationNo → State → State) :
    takePeer src deliver s = deliver st (frameEnded s) := by
  simp only [takePeer, h.canTake, hsrc, endFrame_eq, if_true, if_neg hother]

/-! ### The entries a RELEASE matches -/

theorem releaseMatches_eq (st : StationNo) (number target : Byte) (v : ViewEntry) :
    releaseMatches st number target v =
      (decide (v.station = st) && decide (v.number = number) && decide (v.target.val = target.toNat)) := rfl

theorem any_releaseMatches_iff {st : StationNo} {number target : Byte} {view : List ViewEntry} :
    view.any (releaseMatches st number target) = true ↔
      ∃ v ∈ view, v.station = st ∧ v.number = number ∧ v.target.val = target.toNat := by
  simp only [List.any_eq_true, releaseMatches_eq, Bool.and_eq_true, decide_eq_true_eq, and_assoc]

section
variable {st : StationNo} {number target : Byte} {s : State}

theorem deliverRelease_of_match (h : ∃ v ∈ s.view, v.station = st ∧ v.number = number ∧ v.target.val = target.toNat) :
    deliverRelease number target st s =
      react { s with view := s.view.filter (fun v => !(releaseMatches st number target v)) } :=
  if_pos (any_releaseMatches_iff.mpr h)

theorem deliverRelease_of_no_match
    (h : ∀ v ∈ s.view, ¬(v.station = st ∧ v.number = number ∧ v.target.val = target.toNat)) :
    deliverRelease number target st s = { s with unknownReleases := satCount s.unknownReleases } :=
  if_neg fun hany =>
    have ⟨v, hv, hmatch⟩ := any_releaseMatches_iff.mp hany
    h v hv hmatch

end

/-! ### The two commands on a frame that is delivered -/

section
variable {src : BitVec 4} {st : StationNo} {s : State}

theorem exec_releaseTaken_delivered (h : FrameReady s) (hsrc : stationOf src = some st) (hother : st ≠ s.station.number)
    (number target : Byte) :
    exec (.releaseTaken src number target) s = .next (deliverRelease number target st (frameEnded s)) :=
  congrArg Host.Outcome.next (takePeer_delivered h hsrc hother (deliverRelease number target))

theorem exec_rejoinTaken_delivered (h : FrameReady s) (hsrc : stationOf src = some st) (hother : st ≠ s.station.number)
    (cause : Byte) : exec (.rejoinTaken src cause) s = .next (deliverRejoin cause st (frameEnded s)) :=
  congrArg Host.Outcome.next (takePeer_delivered h hsrc hother (deliverRejoin cause))

end

/-- Settles O50: each frame is delivered on the state at its end bit, whose view is still the whole view; a RELEASE then finds its
entry or counts, and a REJOIN filters by station. -/
theorem viewEntriesLeaveByReleaseAndRejoin : Obligations.ViewEntriesLeaveByReleaseAndRejoin := by
  intro src st number target cause s hready hsrc hother
  refine ⟨fun hmatch => ?known, fun hnone => ?unknown, ?rejoin⟩
  case known =>
    rw [exec_releaseTaken_delivered hready hsrc hother, deliverRelease_of_match (by rwa [frameEnded_view])]
    simp only [frameEnded_view, releaseMatches_eq]
  case unknown =>
    rw [exec_releaseTaken_delivered hready hsrc hother, deliverRelease_of_no_match (by rwa [frameEnded_view]),
      frameEnded_unknownReleases]
  case rejoin =>
    rw [exec_rejoinTaken_delivered hready hsrc hother, deliverRejoin, frameEnded_view]

end Sys2Proof.Machine
end

section
/-! SUPPORT. Every command as a sequence of moves, once: a property that each move keeps (`OpsClosed`, and `LineFree` where it does
not read the line) is kept by every command. `I` is what holds while a command has not yet taken a port out of UP, the setup store
out of its value or the station out of its phase; `J` is what holds from then on. For an invariant both are the invariant. -/

namespace Sys2Proof.Machine

open Sys2Proof

/-! ### One port -/

/-- A port that is neither HELD nor OFFLINE may enter any state but HELD. -/
theorem PortHoldOk.move {ph : StationPhase} {a b : Port} (h : PortHoldOk ph a) (ha : a.train.state ≠ .held)
    (ho : a.train.state ≠ .offline) (hb : b.train.state ≠ .held)
    (hh : b.train.holds = a.train.holds ∨ b.train.holds = HoldReasons.empty)
    (hw : b.watch.dropSettle = a.watch.dropSettle) : PortHoldOk ph b := by
  obtain ⟨n1, n2⟩ := h.notHeld ha
  refine PortHoldOk.of_free hb ?_ (by rw [hw]; exact n2) (fun hp => absurd (h.2.2 hp) ho)
  rcases hh with hh | hh
  · rw [hh, n1]
  · exact hh

/-- AWAIT may join the hold reasons of any port in RUN. -/
theorem PortHoldOk.holdAwait {a : Port} (h : PortHoldOk .run a) : PortHoldOk .run (holdPort addAwaitHold a) := by
  by_cases hs : a.train.state = .held
  · simp only [holdPort, hs, if_true]
    exact ⟨⟨fun _ => (HoldReasons.ne_empty_iff _).2 (by simp [addAwaitHold]), fun _ => rfl⟩, h.2.1, by simp⟩
  · obtain ⟨n1, n2⟩ := h.notHeld hs
    simp only [holdPort]; rw [if_neg hs]
    exact ⟨⟨fun _ => (HoldReasons.ne_empty_iff _).2 rfl, fun _ => rfl⟩, n2, by simp⟩

/-- SETTLE joins the hold reasons with its timer (R57). -/
theorem PortHoldOk.startSettle {a : Port} (n : Nat) : PortHoldOk .run
    { holdPort addSettleHold a with watch.dropSettle := Timer.start n } := by
  by_cases hs : a.train.state = .held
  · simp only [holdPort, hs, if_true]
    exact ⟨⟨fun _ => (HoldReasons.ne_empty_iff _).2 (by simp [addSettleHold]), fun _ => rfl⟩, rfl, by simp⟩
  · simp only [holdPort]; rw [if_neg hs]
    exact ⟨⟨fun _ => (HoldReasons.ne_empty_iff _).2 rfl, fun _ => rfl⟩, rfl, by simp⟩

/-- The drop settle ends and SETTLE goes with it (R58, R59). -/
theorem PortHoldOk.endSettle {ph : StationPhase} {a : Port} (h : PortHoldOk ph a) (code : Nat) :
    PortHoldOk ph (unholdPort code dropSettleHold { a with watch.dropSettle := Timer.off }) := by
  by_cases hs : a.train.state = .held
  · have hr := h.offline_run (by rw [hs]; simp)
    subst hr
    simp only [unholdPort]
    by_cases he : dropSettleHold a.train.holds = HoldReasons.empty
    · rw [if_pos ⟨hs, he⟩]
      obtain ⟨r1, r2, r3⟩ := portReEntry_facts code
        { a with watch.dropSettle := Timer.off, train.holds := dropSettleHold a.train.holds }
      exact PortHoldOk.of_free r1 r2 (by rw [r3]; rfl) (by simp)
    · rw [if_neg (fun x => he x.2)]
      exact ⟨⟨fun _ => he, fun _ => hs⟩, rfl, by simp⟩
  · obtain ⟨n1, n2⟩ := h.notHeld hs
    simp only [unholdPort]; rw [if_neg (fun x => hs x.1)]
    refine h.congr rfl ?_ n2.symm
    change dropSettleHold a.train.holds = a.train.holds
    rw [n1]; rfl

/-- The drop settle ends and SETTLE gives way to AWAIT (R58). -/
theorem PortHoldOk.settleToAwait {ph : StationPhase} {a : Port} (h : PortHoldOk ph a)
    (hr : a.watch.dropSettle.running = true) :
    PortHoldOk ph (settleToAwait { a with watch.dropSettle := Timer.off }) := by
  have hs : a.train.state = .held := h.1.2 (fun he => by rw [h.2.1, he] at hr; cases hr)
  exact ⟨⟨fun _ => (HoldReasons.ne_empty_iff _).2 (by simp [Machine.settleToAwait]), fun _ => hs⟩, rfl,
    fun hp => absurd (h.2.2 hp) (by rw [hs]; simp)⟩

/-- A port that is not UP keeps the record of its drop where the last drop cause stays and no grade is given. -/
theorem UpOrDropped.modPort_of_not_up {p : PortId} {s : State} {f : Port → Port} (hu : (s.port p).train.state ≠ .up)
    (h1 : (f (s.port p)).train.lastDrop = (s.port p).train.lastDrop) (h2 : (f (s.port p)).train.grade = none)
    (h3 : (f (s.port p)).train.role = none) (h : UpOrDropped p s) : UpOrDropped p (s.modPort p f) :=
  h.settled hu (by rw [State.modPort_port_self]; exact h1) (by rw [State.modPort_port_self]; exact h2)
    (by rw [State.modPort_port_self]; exact h3) rfl

/-- A change that keeps state, last drop cause, grade and role keeps the record of a drop. -/
theorem UpOrDropped.modPort_of_kept {p : PortId} {s : State} {f : Port → Port}
    (h0 : (f (s.port p)).train.state = (s.port p).train.state)
    (h1 : (f (s.port p)).train.lastDrop = (s.port p).train.lastDrop)
    (h2 : (f (s.port p)).train.grade = (s.port p).train.grade)
    (h3 : (f (s.port p)).train.role = (s.port p).train.role) (h : UpOrDropped p s) : UpOrDropped p (s.modPort p f) :=
  h.congr (by rw [State.modPort_port_self]; exact h0) (by rw [State.modPort_port_self]; exact h1)
    (by rw [State.modPort_port_self]; exact h2) (by rw [State.modPort_port_self]; exact h3) (Or.inr rfl)

/-! ### What an automatic request changes -/

/-- Only the queue, the arrival stamp and the sweep differ. -/
def OnlyQueueAndSweep (s t : State) : Prop := t = { s with queue := t.queue, arrival := t.arrival, sweep := t.sweep }

theorem OnlyQueueAndSweep.trans {s t u : State} (h : OnlyQueueAndSweep s t) (g : OnlyQueueAndSweep t u) :
    OnlyQueueAndSweep s u := by
  simp only [OnlyQueueAndSweep] at *
  rw [g, h]

theorem OnlyQueueAndSweep.port {s t : State} (h : OnlyQueueAndSweep s t) (p : PortId) : t.port p = s.port p := by
  rw [h]; rfl

theorem OnlyQueueAndSweep.setup {s t : State} (h : OnlyQueueAndSweep s t) : t.setup = s.setup := by rw [h]

theorem OnlyQueueAndSweep.station {s t : State} (h : OnlyQueueAndSweep s t) : t.station = s.station := by rw [h]

theorem sweepOver_only (f : SweepFields) (ps : List PortId) (s : State) : OnlyQueueAndSweep s (sweepOver f ps s) := by
  induction ps generalizing s with
  | nil => simp only [sweepOver, endRound]; split <;> rfl
  | cons p ps ih =>
    simp only [sweepOver]
    split
    · exact OnlyQueueAndSweep.trans (t := { s with sweep.cursor := some p }) rfl (ih _)
    · split
      · rfl
      · split <;> rfl

theorem sweepAdvance_only (s : State) : OnlyQueueAndSweep s (sweepAdvance s) := by
  simp only [sweepAdvance]
  split
  · rfl
  · exact sweepOver_only _ _ s

theorem sweepAfter_only (b : Bool) (s : State) : OnlyQueueAndSweep s (sweepAfter b s) := by
  simp only [sweepAfter]
  split
  · exact sweepAdvance_only s
  · rfl

theorem autoRequest_only {p : PortId} {r : MeasureRequest} {s t : State} (h : autoRequest p r s = some t) :
    OnlyQueueAndSweep s t := by
  simp only [autoRequest] at h
  split at h
  · cases h; rfl
  · split at h
    · cases h
    · split at h
      · cases h; rfl
      · split at h
        · next b _ => cases h; exact OnlyQueueAndSweep.trans (t := addEntry p r (removeEntry b.target s)) rfl (sweepAfter_only _ _)
        · cases h

/-- An advance of the sweep does not read the ports. -/
theorem sweepOver_modPort (f : SweepFields) (ps : List PortId) (p : PortId) (g : Port → Port) (s : State) :
    sweepOver f ps (s.modPort p g) = (sweepOver f ps s).modPort p g := by
  induction ps generalizing s with
  | nil =>
    by_cases hf : f.period = 0
    · simp only [sweepOver, endRound, hf, if_true]; rfl
    · simp only [sweepOver, endRound, hf, if_false]; rfl
  | cons q qs ih =>
    have h1 : heldFor q (s.modPort p g) = heldFor q s := rfl
    have h2 : waitingFor q (s.modPort p g) = waitingFor q s := rfl
    by_cases hh : heldFor q s = true
    · simp only [sweepOver, h1, hh, if_true]
      exact ih { s with sweep.cursor := some q }
    · simp only [sweepOver, h1, h2, hh, Bool.false_eq_true, if_false]
      cases waitingFor q s with
      | some e => rfl
      | none =>
        by_cases hl : s.queue.length < queueCapacity
        · simp only [State.modPort_queue, hl, if_true]; rfl
        · simp only [State.modPort_queue, hl, if_false]; rfl

theorem sweepAdvance_modPort (p : PortId) (g : Port → Port) (s : State) :
    sweepAdvance (s.modPort p g) = (sweepAdvance s).modPort p g := by
  have h : (s.modPort p g).sweep = s.sweep := rfl
  simp only [sweepAdvance, h]
  cases s.sweep.fields with
  | none => rfl
  | some f => exact sweepOver_modPort f _ p g s

theorem sweepAfter_modPort (b : Bool) (p : PortId) (g : Port → Port) (s : State) :
    sweepAfter b (s.modPort p g) = (sweepAfter b s).modPort p g := by
  have h : (s.modPort p g).sweep = s.sweep := rfl
  simp only [sweepAfter, h]
  cases b || s.sweep.status == SweepStatus.waitingSpace
  · rfl
  · exact sweepAdvance_modPort p g s

/-- An automatic request does not read the ports. -/
theorem autoRequest_modPort (q : PortId) (r : MeasureRequest) (p : PortId) (g : Port → Port) (s : State) :
    autoRequest q r (s.modPort p g) = (autoRequest q r s).map (fun t => t.modPort p g) := by
  have h1 : heldFor q (s.modPort p g) = heldFor q s := rfl
  have h2 : waitingFor q (s.modPort p g) = waitingFor q s := rfl
  simp only [autoRequest, h1, h2]
  cases waitingFor q s with
  | some e => rfl
  | none =>
    by_cases hh : heldFor q s = true
    · simp only [hh, if_true]; rfl
    · by_cases hl : s.queue.length < queueCapacity
      · simp only [State.modPort_queue, hh, hl, Bool.false_eq_true, if_false, if_true]; rfl
      · simp only [State.modPort_queue, hh, hl, Bool.false_eq_true, if_false]
        cases youngestBackground s.queue with
        | none => rfl
        | some b => exact congrArg some (sweepAfter_modPort _ p g (addEntry q r (removeEntry b.target s)))

/-! ### The moves -/

/-- The moves of the shared operations on entries, channels and claims keep the property. -/
structure SharedMoves (J : State → Prop) : Prop where
  raised : ∀ (e : Event) (s : State), J s → J (raise e s)
  quiet : ∀ (sw : Sweep) (b : Budget) (s : State), J s → J { s with sweep := sw, budget := b }
  merged : ∀ (p : PortId) (r : MeasureRequest) (e : Entry) (s : State), waitingFor p s = some e → J s → J (mergeInto p r e s)
  added : ∀ (p : PortId) (r : MeasureRequest) (s : State), (∀ x ∈ s.queue, x.target ≠ p) → s.queue.length < queueCapacity →
    J s → J (addEntry p r s)
  requested : ∀ (p : PortId) (r : MeasureRequest) (s t : State), autoRequest p r s = some t → J s → J t
  swept : ∀ s : State, J s → J (sweepAdvance s)
  sweepEnded : ∀ s : State, J s → J (endSweep s)
  sweepRetired : ∀ s : State, J s → J (retireSweep s)
  outcome : ∀ (p : PortId) (o : FinalOutcome) (s : State), J s → J (finalOutcome p o s)
  waitingDropped : ∀ (p : PortId) (s : State), J s → J (dropWaiting p s)
  react : ∀ s : State, J s → J (Machine.react s)
  stopped : ∀ (ch : ChannelId) (o : StopOutcome) (s : State), J s → J (stopChannel ch o s)
  stoppedNow : ∀ (ch : ChannelId) (o : StopOutcome) (s : State),
    ((s.chan ch).phase = .bursting ∨ ∃ l, holdoffClaim (s.chan ch) = some l) → J s → J (stopNow ch o s)
  finished : ∀ (ch : ChannelId) (o : FinalOutcome) (s : State), (s.chan ch).phase = .bursting → J s → J (finishBurst ch o s)
  chan : ∀ (ch : ChannelId) (f : Channel → Channel) (s : State),
    (∀ c, (f c).phase = c.phase ∧ (f c).claim = c.claim ∧ (f c).meas = c.meas ∧ (f c).launched = c.launched) → J s →
    J (s.modChan ch f)
  burst : ∀ (ch : ChannelId) (l : LocalClaim) (s : State), holdoffClaim (s.chan ch) = some l → J s → J (enterBursting ch s)
  waitsYield : ∀ (ch : ChannelId) (l : LocalClaim) (s : State), holdoffClaim (s.chan ch) = some l → J s →
    J (s.modChan ch enterWaitYield)

/-- The moves that the commands' own effects are made of keep the property. -/
structure OwnMoves (I J : State → Prop) : Prop where
  start : ∀ s, I s → J s
  port : ∀ (p : PortId) (f : Port → Port) (s : State),
    (PortHoldOk s.station.phase (s.port p) → PortHoldOk s.station.phase (f (s.port p))) →
    ((s.port p).train.state = .up → (f (s.port p)).train.state = .up) → I s → I (s.modPort p f)
  fronts : ∀ (f : PortId → Port → Port) (s : State), (∀ p pt, (f p pt).train = pt.train ∧ (f p pt).watch = pt.watch) →
    I s → I (s.mapPorts f)
  drawn : ∀ (n : Nat) (s : State), I s → I { s with draws := n }
  raisedFirst : ∀ (e : Event) (s : State), I s → I (raise e s)
  reported : ∀ s : State, I s → I { s with summary := Summary.empty }
  controller : ∀ (st : Station) (s : State), st.phase = s.station.phase → st.geometry = s.station.geometry →
    (s.station.locked = true → st.locked = true) → I s → I { s with station := st }
  leaves : ∀ (p : PortId) (f : Port → Port) (s : State),
    (PortHoldOk s.station.phase (s.port p) → PortHoldOk s.station.phase (f (s.port p))) →
    ((s.port p).train.state = .up → UpOrDropped p (s.modPort p f)) → I s → J (s.modPort p f)
  stored : ∀ (su : Setup) (s : State), s.station.phase = .setup → (SetupOk s.setup → SetupOk su) → I s → J { s with setup := su }
  phase : ∀ (st : Station) (s : State), s.station.phase ≠ .run → st.phase ≠ .run → st.geometry = s.station.geometry →
    st.locked = s.station.locked → I s → J { s with station := st }
  run : ∀ s : State, s.station.phase ≠ .run → I s → J
    { s.mapPorts (portAtRun s) with
      station := { s.station with phase := .run, listen := Timer.off, calibrating := Timer.off, window := Timer.off }
      budget := { s.budget with window := Timer.start (4000 * s.setup.budgetWindow) } }
  reset : ∀ (st : Station) (s : State), st.phase = .listen → st.locked = s.station.locked → I s →
    J (resetBlocks st s.setup s)
  portAfter : ∀ (p : PortId) (f : Port → Port) (s : State),
    (PortHoldOk s.station.phase (s.port p) → PortHoldOk s.station.phase (f (s.port p))) →
    (UpOrDropped p s → UpOrDropped p (s.modPort p f)) → J s → J (s.modPort p f)
  view : ∀ (v : List ViewEntry) (s : State), (ViewOk s.view → ViewOk v) → J s → J { s with view := v }

/-- The moves that the commands' own effects and the shared operations are made of, and which keep the property. -/
structure OpsClosed (I J : State → Prop) : Prop extends OwnMoves I J, SharedMoves J

namespace OpsClosed

variable {I J : State → Prop} (K : OpsClosed I J)
include K

/-! ### Ports -/

/-- A port that is neither HELD, OFFLINE nor UP moves on in training. -/
theorem train (p : PortId) (f : Port → Port) (s : State) (ha : (s.port p).train.state ≠ .held)
    (ho : (s.port p).train.state ≠ .offline) (hu : (s.port p).train.state ≠ .up) (hb : (f (s.port p)).train.state ≠ .held)
    (hh : (f (s.port p)).train.holds = (s.port p).train.holds ∨ (f (s.port p)).train.holds = HoldReasons.empty)
    (hw : (f (s.port p)).watch.dropSettle = (s.port p).watch.dropSettle) (h : I s) : I (s.modPort p f) :=
  K.port p f s (fun g => g.move ha ho hb hh hw) (fun e => absurd e hu) h

/-- A change that keeps state, hold reasons and drop settle. -/
theorem keep (p : PortId) (f : Port → Port) (s : State) (h1 : (f (s.port p)).train.state = (s.port p).train.state)
    (h2 : (f (s.port p)).train.holds = (s.port p).train.holds)
    (h3 : (f (s.port p)).watch.dropSettle = (s.port p).watch.dropSettle) (h : I s) : I (s.modPort p f) :=
  K.port p f s (fun g => g.congr h1 h2 (by rw [h3])) (fun e => h1.trans e) h

/-- A change that keeps all that the invariants read of a port. -/
theorem keepAfter (p : PortId) (f : Port → Port) (s : State) (h1 : (f (s.port p)).train.state = (s.port p).train.state)
    (h2 : (f (s.port p)).train.holds = (s.port p).train.holds)
    (h3 : (f (s.port p)).watch.dropSettle = (s.port p).watch.dropSettle)
    (h4 : (f (s.port p)).train.lastDrop = (s.port p).train.lastDrop)
    (h5 : (f (s.port p)).train.grade = (s.port p).train.grade)
    (h6 : (f (s.port p)).train.role = (s.port p).train.role) (h : J s) : J (s.modPort p f) :=
  K.portAfter p f s (fun g => g.congr h1 h2 (by rw [h3])) (UpOrDropped.modPort_of_kept h1 h4 h5 h6) h

/-- A port that is neither HELD, OFFLINE nor UP enters a state without grade and role. -/
theorem trainAfter (p : PortId) (f : Port → Port) (s : State) (ha : (s.port p).train.state ≠ .held)
    (ho : (s.port p).train.state ≠ .offline) (hu : (s.port p).train.state ≠ .up) (hb : (f (s.port p)).train.state ≠ .held)
    (hh : (f (s.port p)).train.holds = (s.port p).train.holds ∨ (f (s.port p)).train.holds = HoldReasons.empty)
    (hw : (f (s.port p)).watch.dropSettle = (s.port p).watch.dropSettle)
    (h4 : (f (s.port p)).train.lastDrop = (s.port p).train.lastDrop)
    (h5 : (f (s.port p)).train.grade = none) (h6 : (f (s.port p)).train.role = none) (h : J s) : J (s.modPort p f) :=
  K.portAfter p f s (fun g => g.move ha ho hb hh hw) (UpOrDropped.modPort_of_not_up hu h4 h5 h6) h

theorem dropLink (p : PortId) (c : DropCause) (s : State) (hu : (s.port p).train.state = .up) (h : J s) :
    J (Machine.dropLink p c s) :=
  K.raised _ _ (K.portAfter p _ s (fun g => g.congr rfl rfl rfl)
    (fun _ => Or.inl (by rw [State.modPort_port_self]; exact hu)) h)

/-- A port whose drop is on record, as `dropLink` has left it, enters another state. -/
theorem afterDrop (p : PortId) (c : DropCause) (f : Port → Port) (s : State)
    (hf : PortHoldOk s.station.phase (dropPort c (s.port p)) → PortHoldOk s.station.phase (f (dropPort c (s.port p))))
    (h4 : (f (dropPort c (s.port p))).train.lastDrop = some c) (h5 : (f (dropPort c (s.port p))).train.grade = none)
    (h6 : (f (dropPort c (s.port p))).train.role = none) (hu : (s.port p).train.state = .up) (h : J s) :
    J ((Machine.dropLink p c s).modPort p f) := by
  have hp : (Machine.dropLink p c s).port p = dropPort c (s.port p) := by simp [Machine.dropLink]
  have hl := (dropLink_dropped p c s).2.2.2
  refine K.portAfter p f _ ?_ (fun _ => Or.inr ?_) (K.dropLink p c s hu h)
  · rw [hp]; simpa only [Machine.dropLink, raise_station, State.modPort_station] using hf
  · rw [State.modPort_port_self, hp]
    exact ⟨by rw [h4]; rfl, h5, h6, hl⟩

theorem qualityDrop (p : PortId) (c : DropCause) (s : State) (hu : (s.port p).train.state = .up) (h : J s) :
    J (Machine.qualityDrop p c s) := by
  simp only [Machine.qualityDrop]
  have hd : (dropPort c (s.port p)).train.state = .up := hu
  split
  · simp only [startDropSettle, hold, State.modPort_modPort]
    refine K.afterDrop p c _ s (fun g => ?_) ?_ ?_ ?_ hu h
    · have hr := g.offline_run (by rw [hd]; simp)
      rw [hr]
      exact PortHoldOk.startSettle _
    all_goals simp only [holdPort, hd]; rfl
  · simp only [reEnter]
    refine K.afterDrop p c _ s (fun g => ?_) ?_ ?_ ?_ hu h
    · obtain ⟨r1, r2, r3⟩ := portReEntry_facts (Machine.dropLink p c s).setup.wakeSettle (dropPort c (s.port p))
      exact g.move (by rw [hd]; simp) (by rw [hd]; simp) r1 (Or.inr r2) (by rw [r3])
    all_goals simp only [portReEntry]; split <;> rfl

end OpsClosed

/-! ### Failed attempts (R18, R38, R39) -/

/-- The state of a port in an attempt, which a failure ends. -/
def Attempting (pt : Port) : Prop := pt.train.state ≠ .held ∧ pt.train.state ≠ .offline ∧ pt.train.state ≠ .up

theorem Port.isIn_iff {pt : Port} {st : TrainState} : pt.isIn st = true ↔ pt.train.state = st := by simp [Port.isIn]

theorem Attempting.of_state {pt : Port} {st : TrainState} (h : pt.train.state = st) (h1 : st ≠ .held) (h2 : st ≠ .offline)
    (h3 : st ≠ .up) : Attempting pt := by subst h; exact ⟨h1, h2, h3⟩

namespace OpsClosed

variable {I J : State → Prop} (K : OpsClosed I J)
include K

theorem setDownshift (p : PortId) (s : State) (h : J s) : J (Machine.setDownshift p s) :=
  K.raised _ _ (K.keepAfter p _ s rfl rfl rfl rfl rfl rfl h)

theorem clearFourPair (p : PortId) (s : State) (h : J s) : J (Machine.clearFourPair p s) :=
  K.keepAfter p _ s rfl rfl rfl rfl rfl rfl h

theorem noteQueueFull (p : PortId) (s : State) (h : J s) : J (Machine.noteQueueFull p s) :=
  K.raised _ _ (K.keepAfter p _ s rfl rfl rfl rfl rfl rfl h)

theorem enterBackoff (p : PortId) (s : State) (ha : Attempting (s.port p)) (h : J s) : J (s.modPort p Machine.enterBackoff) :=
  K.trainAfter p _ s ha.1 ha.2.1 ha.2.2 (by simp [Machine.enterBackoff, settleInto]) (Or.inr rfl) rfl rfl rfl rfl h

theorem reEnterFree (p : PortId) (s : State) (ha : Attempting (s.port p)) (h : J s) : J (Machine.reEnter p s) := by
  obtain ⟨r1, r2, r3⟩ := portReEntry_facts s.setup.wakeSettle (s.port p)
  refine K.trainAfter p _ s ha.1 ha.2.1 ha.2.2 r1 (Or.inr r2) (by rw [r3]) ?_ ?_ ?_ h
  all_goals simp only [portReEntry]; split <;> rfl

theorem awaits (p : PortId) (s : State) (ha : Attempting (s.port p)) (h : J s) : J (hold p addAwaitHold s) := by
  refine K.portAfter p _ s (fun g => ?_) (UpOrDropped.modPort_of_not_up ha.2.2 ?_ ?_ ?_) h
  · have hr := g.offline_run ha.2.1
    rw [hr] at g ⊢
    exact g.holdAwait
  all_goals simp only [holdPort, ha.1, if_false]; rfl

theorem firstDownshiftTest (p : PortId) (s : State) (ha : Attempting (s.port p)) (h : J s) :
    J (Machine.firstDownshiftTest p s) := by
  simp only [Machine.firstDownshiftTest]
  split
  · exact K.enterBackoff p _ (by simp only [Machine.setDownshift, raise_port, State.modPort_port_self]; exact ha)
      (K.setDownshift p s h)
  · split
    · exact K.enterBackoff p _ (by simp only [Machine.clearFourPair, State.modPort_port_self]; exact ha)
        (K.clearFourPair p s h)
    · split
      · next t ht =>
        have hp := (autoRequest_only ht).port p
        refine K.react _ (K.awaits p _ ?_ (K.keepAfter p _ t rfl rfl rfl rfl rfl rfl (K.requested p _ s t ht h)))
        rw [State.modPort_port_self, hp]; exact ha
      · refine K.noteQueueFull p _ (K.reEnterFree p _ ?_ (K.clearFourPair p s h))
        simp only [Machine.clearFourPair, State.modPort_port_self]; exact ha

theorem failAttempt (p : PortId) (cause : FailureCause) (s : State) (ha : Attempting (s.port p)) (h : J s) :
    J (Machine.failAttempt p cause s) := by
  have h1 : J (s.modPort p (fun pt => { pt with train := noteFailure cause pt.train })) :=
    K.trainAfter p _ s ha.1 ha.2.1 ha.2.2 ha.1 (Or.inl rfl) rfl rfl rfl rfl h
  have ha1 : Attempting ((s.modPort p (fun pt => { pt with train := noteFailure cause pt.train })).port p) := by
    rw [State.modPort_port_self]; exact ha
  have h2 : ∀ b : Bool, J (if b then raise (.trainFailed p) (s.modPort p (fun pt => { pt with train := noteFailure cause pt.train }))
      else s.modPort p (fun pt => { pt with train := noteFailure cause pt.train })) := fun b => by
    cases b
    · exact h1
    · exact K.raised _ _ h1
  have ha2 : ∀ b : Bool, Attempting ((if b then raise (.trainFailed p) (s.modPort p (fun pt => { pt with train := noteFailure cause pt.train }))
      else s.modPort p (fun pt => { pt with train := noteFailure cause pt.train })).port p) := fun b => by
    cases b
    · exact ha1
    · simp only [if_true, raise_port]; exact ha1
  simp only [Machine.failAttempt]
  split
  · exact K.firstDownshiftTest p _ (ha2 _) (h2 _)
  · exact K.enterBackoff p _ (ha2 _) (h2 _)

/-! ### Training (Chapters 1 and 2) -/

theorem repeatOffering (p : PortId) (s : State) (ha : Attempting (s.port p)) (h : I s) : I (Machine.repeatOffering p s) :=
  K.drawn _ _ (K.train p _ s ha.1 ha.2.1 ha.2.2 (by simp [repeatAttempt]) (Or.inl rfl) rfl h)

theorem enterOffering (p : PortId) (s : State) (ha : Attempting (s.port p)) (h : I s) : I (Machine.enterOffering p s) :=
  K.drawn _ _ (K.train p _ s ha.1 ha.2.1 ha.2.2 (by simp [newAttempt]) (Or.inl rfl) rfl h)

theorem enterResolving (p : PortId) (g : Grade) (b : Bool) (s : State) (ha : Attempting (s.port p)) (h : I s) :
    I (s.modPort p (Machine.enterResolving g b)) :=
  K.train p _ s ha.1 ha.2.1 ha.2.2 (by simp [Machine.enterResolving]) (Or.inl rfl) rfl h

theorem roleOrTie (p : PortId) (page : OfferPage) (s : State) (ha : Attempting (s.port p)) (h : I s) :
    J (Machine.roleOrTie p page s) := by
  have h1 : I (s.modPort p (fun pt => { pt with train.tieCount := pt.train.tieCount + 1 })) := K.keep p _ s rfl rfl rfl h
  have ha1 : Attempting ((s.modPort p (fun pt => { pt with train.tieCount := pt.train.tieCount + 1 })).port p) := by
    rw [State.modPort_port_self]; exact ha
  simp only [Machine.roleOrTie]
  split
  · exact K.start _ (K.keep p _ s rfl rfl rfl h)
  · split
    · exact K.failAttempt p _ _ ha1 (K.start _ h1)
    · exact K.start _ (K.repeatOffering p _ ha1 h1)

theorem completeExchange (p : PortId) (page : OfferPage) (s : State) (ha : Attempting (s.port p)) (h : I s) :
    J (Machine.completeExchange p page s) := by
  simp only [Machine.completeExchange]
  split
  · exact K.failAttempt p _ s ha (K.start s h)
  · refine K.roleOrTie p page _ ?_ (K.enterResolving p _ _ s ha h)
    rw [State.modPort_port_self]
    exact .of_state (st := .resolving) rfl (by simp) (by simp) (by simp)

end OpsClosed

/-- Passing the checks leaves the port's hold reasons and its watch. -/
theorem passChecks_kept (pt : Port) : (passChecks pt).train.holds = pt.train.holds ∧ (passChecks pt).watch = pt.watch ∧
    ((passChecks pt).train.state = .qualifying ∨ (passChecks pt).train.state = pt.train.state) := by
  simp only [passChecks]
  split
  · exact ⟨rfl, rfl, Or.inl rfl⟩
  · exact ⟨rfl, rfl, Or.inr rfl⟩

theorem afterValidMap_kept (pt : Port) : (afterValidMap pt).train.holds = pt.train.holds ∧ (afterValidMap pt).watch = pt.watch ∧
    ((afterValidMap pt).train.state = .qualifying ∨ (afterValidMap pt).train.state = pt.train.state) := by
  simp only [afterValidMap]
  split
  · simp
  · simpa using passChecks_kept (beginProbing { pt with res.identified := true })

theorem trySucceed_kept (pt : Port) : (trySucceed pt).train.holds = pt.train.holds ∧ (trySucceed pt).watch = pt.watch ∧
    ((trySucceed pt).train.state = .qualifying ∨ (trySucceed pt).train.state = pt.train.state) := by
  simp only [trySucceed]
  split
  · exact ⟨rfl, rfl, Or.inl rfl⟩
  · exact ⟨rfl, rfl, Or.inr rfl⟩

namespace OpsClosed

variable {I J : State → Prop} (K : OpsClosed I J)
include K

/-- A port in an attempt goes on, to QUALIFYING or in its state. -/
theorem goesOn (p : PortId) (f : Port → Port) (s : State) (ha : Attempting (s.port p))
    (hf : (f (s.port p)).train.holds = (s.port p).train.holds ∧ (f (s.port p)).watch = (s.port p).watch ∧
      ((f (s.port p)).train.state = .qualifying ∨ (f (s.port p)).train.state = (s.port p).train.state)) (h : I s) :
    I (s.modPort p f) := by
  obtain ⟨f1, f2, f3⟩ := hf
  refine K.train p f s ha.1 ha.2.1 ha.2.2 ?_ (Or.inl f1) (by rw [f2]) h
  rcases f3 with f3 | f3 <;> rw [f3]
  · simp
  · exact ha.1

theorem completeIdentification (p : PortId) (s : State) (ha : Attempting (s.port p)) (h : I s) :
    J (Machine.completeIdentification p s) := by
  have h1 : I (s.modPort p fixResults) := K.keep p _ s rfl rfl rfl h
  have ha1 : Attempting ((s.modPort p fixResults).port p) := by rw [State.modPort_port_self]; exact ha
  simp only [Machine.completeIdentification]
  split
  · exact K.start _ (K.goesOn p _ _ ha1 (afterValidMap_kept _) h1)
  · refine K.failAttempt p _ _ ?_ (K.start _ (K.keep p _ _ rfl rfl rfl h1))
    rw [State.modPort_port_self]; exact ha1

theorem skewTest (p : PortId) (s : State) (ha : Attempting (s.port p)) (h : I s) : J (Machine.skewTest p s) := by
  simp only [Machine.skewTest]
  split
  · exact K.start s h
  · next qp _ =>
    have h1 := K.keep p (fun pt => { pt with res := { pt.res with
      skew := (skewsOf qp).map some, probing := false, probedSent := pt.train.role == some .source } }) s rfl rfl rfl h
    split
    · refine K.failAttempt p _ _ ?_ (K.start _ (K.keep p _ _ ?_ ?_ ?_ h1))
      · simp only [State.modPort_port_self]; split <;> exact ha
      all_goals simp only [State.modPort_port_self]; split <;> rfl
    · refine K.start _ (K.goesOn p _ _ ?_ (passChecks_kept _) h1)
      rw [State.modPort_port_self]; exact ha

theorem enterUp (p : PortId) (s : State) (hq : (s.port p).train.state = .qualifying) (h : I s) : J (Machine.enterUp p s) := by
  have ha : Attempting (s.port p) := .of_state hq (by simp) (by simp) (by simp)
  have h1 := K.raisedFirst (.linkUp p) _ (K.train p (fun pt =>
    { pt with
      train := { pt.train with state := .up, consecutive := 0, fourPair := 0, runAlerted := false
                               errorFree := pt.train.errorFree.pause }
      timers := TrainTimers.fresh
      watch := { pt.watch with
        condition := if pt.train.shadowed then .suspended else .counting
        window := if pt.train.shadowed then Timer.off else Timer.start s.setup.window
        symbol := 0, idle := 0, margin := 0, silence := Timer.off } }) s ha.1 ha.2.1 ha.2.2 (by simp) (Or.inl rfl) rfl h)
  simp only [Machine.enterUp]
  split
  · exact K.start _ h1
  · split
    · exact K.qualityDrop p _ _ (by rw [raise_port, State.modPort_port_self]) (K.start _ h1)
    · exact K.start _ (K.keep p _ _ rfl rfl rfl h1)

end OpsClosed

end Sys2Proof.Machine
end

section
/-! SUPPORT. The commands that do not read the line, one by one, under the moves of `OpsClosed`: a port's events, the blocks'
answers to requests, the shot sequence, the station's phases and the view's own times. -/

namespace Sys2Proof.Machine

open Sys2Proof

/-- Every state that the outcome answers has the property. -/
def Answers (J : State → Prop) (r : Result) : Prop := ∀ t, r = .next t → J t

theorem Answers.next {J : State → Prop} {t : State} (h : J t) : Answers J (.next t) := by rintro _ ⟨⟩; exact h

theorem loseEnergy_kept (pt : Port) : (loseEnergy pt).train = pt.train ∧ (loseEnergy pt).watch = pt.watch := by
  simp only [loseEnergy]; split <;> exact ⟨rfl, rfl⟩

theorem counting_up {pt : Port} (h : pt.counting = true) : pt.train.state = .up := by
  simp only [Port.counting, Bool.and_eq_true] at h
  exact Port.isIn_iff.1 h.1

namespace OpsClosed

variable {I J : State → Prop} (K : OpsClosed I J)
include K

/-- An event at a port that satisfies a test. -/
theorem onPort (p : PortId) (test : Port → Bool) (f : State → State) (s : State) (hf : test (s.port p) = true → J (f s)) (h : I s) :
    Answers J (.next (Machine.onPort p test f s)) := by
  refine .next ?_
  cases ht : test (s.port p)
  · rw [onPort_neg ht]; exact K.start s h
  · rw [onPort_pos ht]; exact hf ht

/-- An event at a channel that satisfies a test. -/
theorem onChan (ch : ChannelId) (test : Channel → Bool) (f : State → State) (s : State)
    (hf : test (s.chan ch) = true → J (f s)) (h : I s) : Answers J (.next (Machine.onChan ch test f s)) := by
  refine .next ?_
  cases ht : test (s.chan ch)
  · rw [onChan_neg ht]; exact K.start s h
  · rw [onChan_pos ht]; exact hf ht

/-! ### Energy and the watch (Chapter 3) -/

theorem energyAppears (p : PortId) (b : Bool) (s : State) (h : I s) : Answers J (execEnergyAppears p b s) := by
  refine K.onPort p _ _ s (fun _ => K.start _ ?_) h
  cases hs : (s.port p).train.state
  case dormant =>
    cases b
    · exact K.keep p _ s (by simp [hs]) (by simp [hs]) (by simp [hs]) h
    · refine K.train p _ s (by simp [hs]) (by simp [hs]) (by simp [hs]) ?_ (Or.inr ?_) ?_ h
      all_goals simp [hs, enterSettling, settleInto]
  all_goals exact K.keep p _ s (by simp [hs]) (by simp [hs]) (by simp [hs]) h

theorem energyDisappears (p : PortId) (s : State) (h : I s) : Answers J (execEnergyDisappears p s) := by
  obtain ⟨l1, l2⟩ := loseEnergy_kept (s.port p)
  have h1 : I (s.modPort p loseEnergy) := K.keep p _ s (by rw [l1]) (by rw [l1]) (by rw [l2]) h
  refine K.onPort p _ _ s (fun _ => ?_) h
  split
  · next hu =>
    split
    · exact K.qualityDrop p _ _ (by rw [State.modPort_port_self, l1]; exact Port.isIn_iff.1 hu) (K.start _ h1)
    · exact K.start _ (K.keep p _ _ rfl rfl rfl h1)
  · exact K.start _ h1

theorem countEvent (p : PortId) (c : DropCause) (n m : Nat) (f : Watch → Watch) (s : State)
    (hf : ∀ w, (f w).dropSettle = w.dropSettle) (hu : (s.port p).train.state = .up) (h : I s) :
    J (Machine.countEvent p c n m f s) := by
  simp only [Machine.countEvent]
  split
  · exact K.qualityDrop p c s hu (K.start s h)
  · exact K.start _ (K.keep p _ s rfl rfl (hf _) h)

theorem disturbQualifying (p : PortId) (s : State) (h : I s) : J (Machine.disturbQualifying p s) := by
  simp only [Machine.disturbQualifying]
  split
  · exact K.start _ (K.keep p _ s rfl rfl rfl h)
  · exact K.start s h

theorem symbolError (p : PortId) (s : State) (h : I s) : Answers J (execSymbolError p s) := by
  refine .next ?_
  dsimp only
  split
  · next hc => exact K.countEvent p _ _ _ _ s (fun _ => rfl) (counting_up (Bool.and_eq_true _ _ ▸ hc).1) h
  · exact K.disturbQualifying p s h

theorem idleError (p : PortId) (s : State) (h : I s) : Answers J (execIdleError p s) := by
  refine .next ?_
  dsimp only
  split
  · next hc => exact K.countEvent p _ _ _ _ s (fun _ => rfl) (counting_up (Bool.and_eq_true _ _ ▸ hc).1) h
  · exact K.disturbQualifying p s h

theorem marginDip (p : PortId) (s : State) (h : I s) : Answers J (execMarginDip p s) := by
  refine .next ?_
  dsimp only
  split
  · next hc => exact K.countEvent p _ _ _ _ s (fun _ => rfl) (counting_up (Bool.and_eq_true _ _ ▸ hc).1) h
  · exact K.start s h

theorem lossOfLock (p : PortId) (s : State) (h : I s) : Answers J (execLossOfLock p s) := by
  refine .next ?_
  split
  · next hc => exact K.qualityDrop p _ s (Port.isIn_iff.1 (Bool.and_eq_true _ _ ▸ hc).1) (K.start s h)
  · exact K.disturbQualifying p s h

theorem windowExpiry (p : PortId) (s : State) (h : I s) : Answers J (execWindowExpiry p s) :=
  K.onPort p _ _ s (fun _ => K.start _ (K.keep p _ s rfl rfl rfl h)) h

theorem silence (p : PortId) (s : State) (h : I s) : Answers J (execSilence p s) :=
  K.onPort p _ _ s (fun ht => K.qualityDrop p _ s (Port.isIn_iff.1 (Bool.and_eq_true _ _ ▸ ht).1) (K.start s h)) h

/-- The drop settle of a port ends, and SETTLE with it (R58, R59). -/
theorem endSettle (p : PortId) (s : State) (h : J s) : J (unhold p dropSettleHold (stopDropSettle p s)) := by
  simp only [unhold, stopDropSettle, State.modPort_modPort, State.modPort_setup]
  refine K.portAfter p _ s (fun g => g.endSettle _) (fun g => ?_) h
  obtain ⟨u1, u2⟩ := unholdPort_facts s.setup.wakeSettle dropSettleHold { s.port p with watch.dropSettle := Timer.off }
  rcases u2 with ⟨a, b, c⟩ | ⟨a, b, c⟩
  · exact g.modPort_of_kept a u1 b c
  · exact g.modPort_of_not_up (by simp only at a; rw [a]; simp) u1 b c

theorem dropSettleExpiry (p : PortId) (s : State) (h : I s) : Answers J (execDropSettleExpiry p s) := by
  refine K.onPort p _ _ s (fun hr => ?_) h
  have h0 : J s := K.start s h
  simp only [afterDropSettle]
  split
  · exact K.endSettle p s h0
  · split
    · next t ht =>
      rw [stopDropSettle, autoRequest_modPort, Option.map_eq_some_iff] at ht
      obtain ⟨u, hu, rfl⟩ := ht
      have hp : u.port p = s.port p := (autoRequest_only hu).port p
      rw [State.modPort_modPort]
      refine K.react _ (K.portAfter p _ u (fun g => g.settleToAwait (by rw [hp]; exact hr)) ?_ (K.requested p _ s u hu h0))
      exact UpOrDropped.modPort_of_kept rfl rfl rfl rfl
    · exact K.noteQueueFull p _ (K.endSettle p s h0)

end OpsClosed

/-- The state that a test of a port names. -/
theorem state_of_isIn {pt : Port} {st : TrainState} {b : Bool} (h : (pt.isIn st && b) = true) : pt.train.state = st :=
  Port.isIn_iff.1 (Bool.and_eq_true _ _ ▸ h).1

theorem attempting_of_isIn {pt : Port} {st : TrainState} (h : pt.isIn st = true) (h1 : st ≠ .held) (h2 : st ≠ .offline)
    (h3 : st ≠ .up) : Attempting pt := .of_state (Port.isIn_iff.1 h) h1 h2 h3

theorem attempting_of_exchanging {pt : Port} (h : pt.exchanging = true) : Attempting pt :=
  .of_state (state_of_isIn h) (by simp) (by simp) (by simp)

theorem attempting_of_listeningIn {pt : Port} (h : pt.listeningIn = true) : Attempting pt :=
  .of_state (state_of_isIn h) (by simp) (by simp) (by simp)

theorem Attempting.congr {a b : Port} (h : Attempting a) (hs : b.train.state = a.train.state) : Attempting b := by
  simp only [Attempting, hs]; exact h

namespace OpsClosed

variable {I J : State → Prop} (K : OpsClosed I J)
include K

/-! ### Training (Chapters 1 and 2) -/

theorem energyWake (p : PortId) (s : State) (h : I s) : Answers J (execEnergyWake p s) := by
  refine K.onPort p _ _ s (fun ht => K.start _ ?_) h
  have hs : (s.port p).train.state = .dormant := by
    simp only [Bool.and_eq_true] at ht; exact Port.isIn_iff.1 ht.1.1
  exact K.train p _ s (by simp [hs]) (by simp [hs]) (by simp [hs]) (by simp [enterSettling, settleInto]) (Or.inr rfl) rfl h

theorem settleExpiry (p : PortId) (s : State) (h : I s) : Answers J (execSettleExpiry p s) := by
  refine K.onPort p _ _ s (fun ht => K.start _ ?_) h
  have ha : Attempting (s.port p) := attempting_of_isIn ht (by simp) (by simp) (by simp)
  split
  · split
    · exact K.enterResolving p _ _ s ha h
    · exact K.enterOffering p s ha h
  · exact K.train p _ s ha.1 ha.2.1 ha.2.2 (by simp [enterDormant, settleInto]) (Or.inr rfl) rfl h

theorem offerPageSend (p : PortId) (s : State) (h : I s) : Answers J (execOfferPageSend p s) :=
  K.onPort p _ _ s (fun _ => K.start _ (K.keep p _ s rfl rfl rfl h)) h

theorem crossoverAlternation (p : PortId) (s : State) (h : I s) : Answers J (execCrossoverAlternation p s) :=
  K.onPort p _ _ s (fun _ => K.start _ (K.drawn _ _ (K.keep p _ s rfl rfl rfl h))) h

theorem offerPageHearing (p : PortId) (page : OfferPage) (s : State) (h : I s) : Answers J (execOfferPageHearing p page s) := by
  refine K.onPort p _ _ s (fun ht => ?_) h
  have ha : Attempting (s.port p) := attempting_of_isIn ht (by simp) (by simp) (by simp)
  dsimp only
  split
  · exact K.completeExchange p page _ (by rw [State.modPort_port_self]; exact ha.congr rfl) (K.keep p _ s rfl rfl rfl h)
  · exact K.start _ (K.keep p _ s rfl rfl rfl h)

theorem g2IdleStreamChange (p : PortId) (b : Bool) (s : State) (h : I s) : Answers J (execG2IdleStreamChange p b s) :=
  K.onPort p _ _ s (fun _ => K.start _ (K.keep p _ s rfl rfl rfl h)) h

theorem legacyDetection (p : PortId) (s : State) (h : I s) : Answers J (execLegacyDetection p s) := by
  refine K.onPort p _ _ s (fun ht => ?_) h
  simp only [Bool.and_eq_true] at ht
  have ha : Attempting (s.port p) := attempting_of_isIn ht.1.1 (by simp) (by simp) (by simp)
  split
  · exact K.start _ (K.enterResolving p _ _ s ha h)
  · exact K.failAttempt p _ s ha (K.start s h)

theorem offeringLimit (p : PortId) (s : State) (h : I s) : Answers J (execOfferingLimit p s) :=
  K.onPort p _ _ s (fun ht => K.failAttempt p _ s (attempting_of_isIn ht (by simp) (by simp) (by simp)) (K.start s h)) h

theorem identificationSend (p : PortId) (s : State) (h : I s) : Answers J (execIdentificationSend p s) :=
  K.onPort p _ _ s (fun _ => K.start _ (K.keep p _ s rfl rfl rfl h)) h

theorem identificationHearing (p : PortId) (x y : Pair) (b : Bool) (s : State) (h : I s) :
    Answers J (execIdentificationHearing p x y b s) := by
  refine K.onPort p _ _ s (fun ht => ?_) h
  simp only [Bool.and_eq_true] at ht
  dsimp only
  split
  · refine K.completeIdentification p _ ?_ (K.keep p _ s rfl rfl rfl h)
    rw [State.modPort_port_self]; exact (attempting_of_exchanging ht.1.1).congr rfl
  · exact K.start _ (K.keep p _ s rfl rfl rfl h)

/-- An attempt fails with the pairs that the port notes as missing. -/
theorem failMissing (p : PortId) (f : Port → Port) (s : State) (hf : ∀ pt, (f pt).train = pt.train ∧ (f pt).watch = pt.watch)
    (ha : Attempting (s.port p)) (h : I s) : J (Machine.failAttempt p .pairMissing (s.modPort p f)) := by
  obtain ⟨f1, f2⟩ := hf (s.port p)
  refine K.failAttempt p _ _ ?_ (K.start _ (K.keep p _ s (by rw [f1]) (by rw [f1]) (by rw [f2]) h))
  rw [State.modPort_port_self]; exact ha.congr (by rw [f1])

theorem identificationLimit (p : PortId) (s : State) (h : I s) : Answers J (execIdentificationLimit p s) :=
  K.onPort p _ _ s (fun ht => K.failMissing p _ s (fun _ => ⟨rfl, rfl⟩)
    (attempting_of_exchanging (Bool.and_eq_true _ _ ▸ ht).1) h) h

theorem pairQualifies (p : PortId) (on : ListenPair) (s : State) (h : I s) : Answers J (execPairQualifies p on s) :=
  K.onPort p _ _ s (fun ht => K.start _ (K.goesOn p _ s (attempting_of_listeningIn (Bool.and_eq_true _ _ ▸ ht).1)
    ⟨rfl, rfl, Or.inl rfl⟩ h)) h

theorem partnerLinkSignalChange (p : PortId) (on : ListenPair) (b : Bool) (s : State) (h : I s) :
    Answers J (execPartnerLinkSignalChange p on b s) := .next (K.start _ (K.keep p _ s rfl rfl rfl h))

theorem crossingListenLimit (p : PortId) (s : State) (h : I s) : Answers J (execCrossingListenLimit p s) :=
  K.onPort p _ _ s (fun ht => K.failMissing p _ s (fun _ => ⟨rfl, rfl⟩) (attempting_of_listeningIn ht) h) h

/-- A marker of the partner is noted, and probing may begin. -/
theorem notesMarker (p : PortId) (f : Port → Port) (s : State) (hf : ∀ pt, (f pt).train = pt.train ∧ (f pt).watch = pt.watch)
    (h : I s) : J (s.modPort p (fun pt => beginProbing (f pt))) := by
  obtain ⟨f1, f2⟩ := hf (s.port p)
  exact K.start _ (K.keep p _ s (by rw [beginProbing_train, f1]) (by rw [beginProbing_train, f1])
    (by rw [beginProbing_watch, f2]) h)

theorem identifiedMarkerHeard (p : PortId) (s : State) (h : I s) : Answers J (execIdentifiedMarkerHeard p s) :=
  K.onPort p _ _ s (fun _ => K.notesMarker p _ s (fun _ => ⟨rfl, rfl⟩) h) h

theorem probedMarkerHeard (p : PortId) (s : State) (h : I s) : Answers J (execProbedMarkerHeard p s) :=
  K.onPort p _ _ s (fun _ => K.notesMarker p _ s (fun _ => ⟨rfl, rfl⟩) h) h

theorem probeLaunch (p : PortId) (s : State) (h : I s) : Answers J (execProbeLaunch p s) :=
  K.onPort p _ _ s (fun _ => K.start _ (K.keep p _ s rfl rfl rfl h)) h

theorem partnerProbe (p : PortId) (x : Pair) (s : State) (h : I s) : Answers J (execPartnerProbe p x s) :=
  K.onPort p _ _ s (fun _ => K.start _ (K.keep p _ s rfl rfl rfl h)) h

theorem probeReturn (p : PortId) (x : Pair) (n : Nat) (s : State) (h : I s) : Answers J (execProbeReturn p x n s) := by
  refine K.onPort p _ _ s (fun ht => ?_) h
  simp only [Bool.and_eq_true] at ht
  refine K.skewTest p _ ?_ (K.keep p _ s rfl rfl rfl h)
  rw [State.modPort_port_self]; exact (attempting_of_exchanging ht.1.1.1.1).congr rfl

theorem doneMarkerHeard (p : PortId) (s : State) (h : I s) : Answers J (execDoneMarkerHeard p s) := by
  refine K.onPort p _ _ s (fun ht => K.start _ (K.goesOn p _ s (attempting_of_exchanging ht) ?_ h)) h
  simpa using trySucceed_kept { s.port p with res.partnerDone := true }

theorem resolvingLimit (p : PortId) (s : State) (h : I s) : Answers J (execResolvingLimit p s) :=
  K.onPort p _ _ s (fun ht => K.failAttempt p _ s (attempting_of_isIn ht (by simp) (by simp) (by simp)) (K.start s h)) h

theorem errorFreeTarget (p : PortId) (s : State) (h : I s) : Answers J (execErrorFreeTarget p s) :=
  K.onPort p _ _ s (fun ht => K.enterUp p s (state_of_isIn ht) h) h

theorem qualifyingLimit (p : PortId) (s : State) (h : I s) : Answers J (execQualifyingLimit p s) :=
  K.onPort p _ _ s (fun ht => K.failAttempt p _ s (attempting_of_isIn ht (by simp) (by simp) (by simp)) (K.start s h)) h

theorem backoffExpiry (p : PortId) (s : State) (h : I s) : Answers J (execBackoffExpiry p s) :=
  K.onPort p _ _ s (fun ht => K.reEnterFree p s (attempting_of_isIn ht (by simp) (by simp) (by simp)) (K.start s h)) h

/-! ### Channels, budget and sweep (Chapters 4 and 5) -/

theorem returnResult (ch : ChannelId) (s : State) (h : J s) : J (Machine.returnResult ch s) := by
  simp only [Machine.returnResult]
  split
  · exact h
  · exact K.chan ch _ s (fun _ => ⟨rfl, rfl, rfl, rfl⟩) h

end OpsClosed

/-- A returned result changes the results and the working set alone. -/
theorem returnResult_chan (ch d : ChannelId) (s : State) : ((returnResult ch s).chan d).phase = (s.chan d).phase ∧
    ((returnResult ch s).chan d).claim = (s.chan d).claim ∧ ((returnResult ch s).chan d).meas = (s.chan d).meas ∧
    ((returnResult ch s).chan d).stop = (s.chan d).stop ∧ ((returnResult ch s).chan d).launched = (s.chan d).launched ∧
    ((returnResult ch s).chan d).stage = (s.chan d).stage := by
  simp only [returnResult]
  split
  · exact ⟨rfl, rfl, rfl, rfl, rfl, rfl⟩
  · by_cases hd : ch = d
    · subst hd; rw [State.modChan_chan_self]; exact ⟨rfl, rfl, rfl, rfl, rfl, rfl⟩
    · rw [State.modChan_chan_ne _ _ _ _ hd]; exact ⟨rfl, rfl, rfl, rfl, rfl, rfl⟩

theorem bursting_of_beforeLaunch {c : Channel} (h : c.beforeLaunch = true) : c.phase = .bursting := by
  simp only [Channel.beforeLaunch, Bool.and_eq_true, beq_iff_eq] at h; exact h.1

theorem bursting_of_capturing {c : Channel} (h : c.capturing = true) : c.phase = .bursting := by
  simp only [Channel.capturing, Bool.and_eq_true, beq_iff_eq] at h; exact h.1

theorem bursting_of_lastRecovery {c : Channel} (h : c.lastRecovery = true) : c.phase = .bursting := by
  simp only [Channel.lastRecovery, Bool.and_eq_true, beq_iff_eq] at h; exact h.1.1

namespace OpsClosed

variable {I J : State → Prop} (K : OpsClosed I J)
include K

/-- A launch trigger; what the launch of the shot itself does is said of each property on its own. -/
theorem launchTrigger (ch : ChannelId) (s : State)
    (hl : ∀ m e, (s.chan ch).meas = some m → heldEntry ch s = some e → (s.chan ch).beforeLaunch = true →
      launchAllowed ch m (Machine.returnResult ch s) = true → J (launchShot ch m e (Machine.returnResult ch s)))
    (h : I s) : Answers J (execLaunchTrigger ch s) := by
  refine K.onChan ch _ _ s (fun ht => ?_) h
  obtain ⟨r1, -, r3, -, -, -⟩ := returnResult_chan ch ch s
  have he : heldEntry ch (Machine.returnResult ch s) = heldEntry ch s := by
    simp only [heldEntry, returnResult_queue]
  have hr : J (Machine.returnResult ch s) := K.returnResult ch s (K.start s h)
  simp only [triggerShot]
  split
  · next m e hm hee =>
    split
    · next ha => exact hl m e (r3 ▸ hm) (he ▸ hee) ht ha
    · exact K.react _ (K.stoppedNow ch _ _ (Or.inl (r1.trans (bursting_of_beforeLaunch ht))) hr)
  · exact hr

theorem busyCheckFailure (ch : ChannelId) (x : Int) (s : State) (h : I s) : Answers J (execBusyCheckFailure ch x s) := by
  refine K.onChan ch _ _ s (fun ht => ?_) h
  obtain ⟨r1, -⟩ := returnResult_chan ch ch s
  have hr : J (Machine.returnResult ch s) := K.returnResult ch s (K.start s h)
  split
  · simp only [failBusy]
    split
    · exact K.react _ (K.finished ch _ _ (r1.trans (bursting_of_beforeLaunch ht)) hr)
    · exact hr
  · exact K.start s h

theorem captureClose (ch : ChannelId) (input : CaptureInput) (s : State) (h : I s) : Answers J (execCaptureClose ch input s) := by
  refine K.onChan ch _ _ s (fun ht => ?_) h
  split
  · exact K.react _ (K.stoppedNow ch _ s (Or.inl (bursting_of_capturing ht)) (K.start s h))
  · refine K.chan ch _ s (fun c => ?_) (K.start s h)
    simp only [closeCapture]
    split <;> exact ⟨rfl, rfl, rfl, rfl⟩
  · exact K.start s h

theorem pairResultReturn (ch : ChannelId) (s : State) (h : I s) : Answers J (execPairResultReturn ch s) :=
  K.onChan ch _ _ s (fun _ => K.returnResult ch s (K.start s h)) h

theorem burstEnd (ch : ChannelId) (s : State) (h : I s) : Answers J (execBurstEnd ch s) := by
  refine K.onChan ch _ _ s (fun ht => ?_) h
  obtain ⟨r1, -⟩ := returnResult_chan ch ch s
  exact K.react _ (K.finished ch _ _ (r1.trans (bursting_of_lastRecovery ht)) (K.returnResult ch s (K.start s h)))

theorem channelSettleExpiry (ch : ChannelId) (s : State) (h : I s) : Answers J (execChannelSettleExpiry ch s) :=
  K.onChan ch _ _ s (fun _ => K.react _ (K.chan ch _ s (fun _ => ⟨rfl, rfl, rfl, rfl⟩) (K.start s h))) h

theorem budgetWindowExpiry (s : State) (h : I s) : Answers J (execBudgetWindowExpiry s) := by
  refine .next ?_
  split
  · exact K.react _ (K.quiet _ _ s (K.start s h))
  · exact K.start s h

theorem paceIntervalPassed (s : State) (h : I s) : Answers J (execPaceIntervalPassed s) := by
  refine .next ?_
  split
  · exact K.react _ (K.quiet _ _ s (K.start s h))
  · exact K.start s h

theorem sweepPeriodExpiry (s : State) (h : I s) : Answers J (execSweepPeriodExpiry s) := by
  refine .next ?_
  split
  · exact K.react _ (K.swept _ (K.quiet _ _ s (K.start s h)))
  · exact K.start s h

theorem holdoffEnd (ch : ChannelId) (s : State) (h : I s) : Answers J (execHoldoffEnd ch s) := by
  refine .next ?_
  split
  · next l hl =>
    refine K.react _ ?_
    simp only [endHoldoff]
    split
    · exact K.burst ch l s hl (K.start s h)
    · split
      · exact K.waitsYield ch l s hl (K.start s h)
      · exact K.stoppedNow ch _ s (Or.inr ⟨l, hl⟩) (K.start s h)
  · exact K.start s h

theorem yieldLimit (ch : ChannelId) (s : State) (h : I s) : Answers J (execYieldLimit ch s) :=
  K.onChan ch _ _ s (fun _ => K.react _ (K.stopped ch _ s (K.start s h))) h

end OpsClosed

end Sys2Proof.Machine
end

section
/-! SUPPORT. The claim view's own times, the station's phases and the answers to requests under the moves of `OpsClosed`. -/

namespace Sys2Proof.Machine

open Sys2Proof

/-! ### The claim view (R159, R160) -/

theorem ViewOk.sublist {v w : List ViewEntry} (h : ViewOk v) (hs : w.Sublist v) : ViewOk w :=
  ⟨hs.length_le.trans h.1, h.2.sublist hs⟩

/-- A change that keeps station and number of every entry. -/
theorem ViewOk.map {v : List ViewEntry} (h : ViewOk v) (f : ViewEntry → ViewEntry)
    (hf : ∀ x, (f x).station = x.station ∧ (f x).number = x.number) : ViewOk (v.map f) := by
  refine ⟨by simpa using h.1, List.pairwise_map.2 (h.2.imp (fun {a b} hab => ?_))⟩
  rw [(hf a).1, (hf b).1, (hf a).2, (hf b).2]; exact hab

namespace OpsClosed

variable {I J : State → Prop} (K : OpsClosed I J)
include K

/-- Entries leave the view. -/
theorem viewFilter (f : ViewEntry → Bool) (s : State) (h : J s) : J { s with view := s.view.filter f } :=
  K.view _ s (fun g => g.sublist List.filter_sublist) h

theorem viewEntryActive (st : StationNo) (n : Byte) (s : State) (h : I s) : Answers J (execViewEntryActive st n s) := by
  refine .next ?_
  split
  · refine K.react _ (K.view _ s (fun g => g.map _ (fun x => ?_)) (K.start s h))
    split <;> exact ⟨rfl, rfl⟩
  · exact K.start s h

theorem viewEntryExpiry (st : StationNo) (n : Byte) (s : State) (h : I s) : Answers J (execViewEntryExpiry st n s) := by
  refine .next ?_
  split
  · exact K.react _ (K.viewFilter _ s (K.start s h))
  · exact K.start s h

/-! ### The station's phases (Chapter 11) -/

theorem enterRun (s : State) (hp : s.station.phase ≠ .run) (h : I s) : J (Machine.enterRun s) := K.react _ (K.run s hp h)

theorem enterSetup (s : State) (hp : s.station.phase ≠ .run) (h : I s) : J (Machine.enterSetup s) :=
  K.phase _ s hp (by simp) rfl rfl h

theorem enterCalibrating (s : State) (hp : s.station.phase ≠ .run) (h : I s) : J (Machine.enterCalibrating s) :=
  K.phase (Machine.enterCalibrating s).station
    (s.mapPorts (fun p pt => { pt with front.terminated := underCalibration (Machine.enterCalibrating s).station p }))
    hp (by simp [Machine.enterCalibrating, switchTermination]) rfl rfl (K.fronts _ s (fun _ _ => ⟨rfl, rfl⟩) h)

theorem calibrationDone (input : List CalibrationInput) (s : State) (h : I s) : Answers J (execCalibrationDone input s) := by
  refine .next ?_
  split
  · next hp =>
    have h1 : I (storeCalibration input (toLineInterface s)) :=
      K.controller _ _ rfl rfl id (K.fronts _ s (fun _ _ => ⟨rfl, rfl⟩) h)
    have h2 : I (raiseCalFault (storeCalibration input (toLineInterface s))) := by
      simp only [raiseCalFault]
      split
      · exact h1
      · exact K.raisedFirst _ _ h1
    have hn : (raiseCalFault (storeCalibration input (toLineInterface s))).station.phase ≠ .run := by
      have : (raiseCalFault (storeCalibration input (toLineInterface s))).station.phase = s.station.phase := by
        simp only [raiseCalFault]
        split
        · rfl
        · rw [raise_station]; rfl
      rw [this, hp]; simp
    dsimp only
    split
    · exact K.enterRun _ hn h2
    · exact K.enterSetup _ hn h2
  · exact K.start s h

theorem setupWindowExpiry (s : State) (h : I s) : Answers J (execSetupWindowExpiry s) := by
  refine .next ?_
  split
  · next hp =>
    exact K.enterRun _ (by rw [raise_station]; simp [hp])
      (K.raisedFirst _ _ (K.controller _ s rfl rfl (fun _ => rfl) h))
  · exact K.start s h

end OpsClosed

/-! ### Requests (Chapter 10) -/

/-- The answer fits in the payload of a REPORT after the request kind, and the state has the property. -/
def Serves (J : State → Prop) (r : Served) : Prop := (∀ a, r.1 = some a → (answerBytes a).length ≤ 14) ∧ J r.2

theorem Serves.refuse {J : State → Prop} {s : State} (r : Reason) (h : J s) : Serves J (refuse r s) := by
  refine ⟨?_, h⟩
  rintro a ⟨⟩; simp [answerBytes]

theorem Serves.accept {J : State → Prop} {s : State} (b : Bool) (h : J s) : Serves J (accept b s) := by
  refine ⟨?_, h⟩
  rintro a ⟨⟩; simp [answerBytes]

theorem Serves.dataOf {J : State → Prop} {s : State} (q : Byte) (page : State → List Byte) (hp : (page s).length ≤ 12) (h : J s) :
    Serves J (dataOf q page s) := by
  refine ⟨?_, h⟩
  rintro a ⟨⟩; simp only [answerBytes, List.length_cons]; omega

/-- A request of a port operand. -/
theorem Serves.withPort {J : State → Prop} {s : State} (port : Byte) (f : PortId → State → Served) (h : J s)
    (hf : ∀ p, Serves J (f p s)) : Serves J (withPort port f s) := by
  simp only [Machine.withPort]
  split
  · exact hf _
  · exact .refuse _ h

/-! ### The lengths of the pages (Tables 10-5 to 10-7) -/

theorem pairWords_length (v : PerPair (Option Nat)) : (pairWords v).length = 8 := by
  have h : ∀ o : Option Nat, (optWord wordBytes o).length = 2 := fun o => by cases o <;> rfl
  simp [pairWords, PerPair.toList, h]

theorem portPage_length (page : Byte) (p : PortId) (s : State) : (portPage page p s).length ≤ 12 := by
  simp only [portPage]
  split
  · simp [portPage0]
  · split
    · simp [portPage1]
    · split
      · simp [portPage2, pairWords_length]
      · split
        · simp [portPage3, pairWords_length]
        · simp [portPage4]

theorem countersPage_length (page : Byte) (p : PortId) (s : State) : (countersPage page p s).length ≤ 12 := by
  simp only [countersPage]
  split <;> simp [count16Bytes, wordBytes]

theorem lengthPage_length (p : PortId) (s : State) : (lengthPage p s).length ≤ 12 := by
  simp only [lengthPage]
  split <;> simp [wordBytes, absentWord, PerPair.toList]

theorem diagHeadPage_length (p : PortId) (s : State) : (diagHeadPage p s).length ≤ 12 := by
  simp only [diagHeadPage]
  split <;> simp [count16Bytes, wordBytes, PerPair.toList]

theorem echoEntryPage_length (e : Echo) : (echoEntryPage e).length = 7 := by
  simp [echoEntryPage, wordBytes, signedWordBytes]

theorem echoPairPage_length (r : PairResult) : (echoPairPage r).length = 7 := by
  have h : (optWord wordBytes r.distance).length = 2 := by cases r.distance <;> rfl
  simp only [echoPairPage, List.length_append, h]
  cases r.launch <;> rfl

theorem echoPage_length (p : PortId) (x : Pair) (index : Byte) (s : State) : (echoPage p x index s).length ≤ 12 := by
  have h : ∀ r : PairResult, (echoFields r index).length = 7 := fun r => by
    simp only [echoFields]
    split
    · exact echoPairPage_length r
    · split
      · exact echoEntryPage_length _
      · rfl
  simp only [echoPage]
  split
  · simp [count16Bytes, wordBytes, h]
  · split <;> simp [absentPairPage, absentEntryPage, absentWord, absentSignedWord]

theorem stationPage_length (page : Byte) (s : State) : (stationPage page s).length ≤ 12 := by
  simp only [stationPage]
  split
  · simp [stationPage0, channelBytes]
  · split
    · simp [stationPage1, count16Bytes, wordBytes]
    · simp only [stationPage2]
      split <;> simp [count16Bytes, wordBytes, portSetBytes, absentWord]

theorem claimEntryPage_length (index : Byte) (s : State) : (claimEntryPage index s).length ≤ 12 := by
  simp only [claimEntryPage]
  split <;> simp [claimEntryFields, wordBytes, absentWord]

namespace OpsClosed

variable {I J : State → Prop} (K : OpsClosed I J)
include K

/-! ### MEASURE, SWEEP, CANCEL (Chapter 4) -/

theorem serveMeasure (port pairs reach av intr : Byte) (s : State) (h : I s) :
    Serves J (Machine.serveMeasure port pairs reach av intr s) := by
  have h0 := K.start s h
  simp only [Machine.serveMeasure]
  split
  · exact .refuse _ h0
  · refine .withPort port _ h0 (fun p => ?_)
    simp only [measurePort]
    split
    · exact .refuse _ h0
    · next hh =>
      split
      · exact .refuse _ h0
      · split
        · next e he => exact .accept _ (K.react _ (K.merged p _ e s he h0))
        · next hw =>
          split
          · exact .refuse _ h0
          · next hq => exact .accept _ (K.react _ (K.added p _ s (no_entry hw (by simpa using hh)) (by omega) h0))

theorem serveSweep (hi lo reach av period : Byte) (s : State) (h : I s) :
    Serves J (Machine.serveSweep hi lo reach av period s) := by
  have h0 := K.start s h
  simp only [Machine.serveSweep]
  split
  · exact .refuse _ h0
  · split
    · exact .refuse _ h0
    · exact .accept _ (K.react _ (K.swept _ (K.quiet _ _ _ (K.sweepRetired s h0))))

theorem endMatter (p : PortId) (o : FinalOutcome) (x : StopOutcome) (s : State) (h : J s) :
    J (Machine.endMatter p o x s) := by
  simp only [Machine.endMatter]
  split
  · exact K.outcome p o s h
  · exact K.stopped _ _ s h
  · exact h

theorem cancelSettle (p : PortId) (s : State) (h : J s) : J (Machine.cancelSettle p s) := by
  simp only [Machine.cancelSettle]
  split
  · exact K.endSettle p s h
  · exact h

theorem cancelPort (p : PortId) (s : State) (h : J s) : J (Machine.cancelPort p s) :=
  K.cancelSettle p _ (K.endMatter p _ _ s h)

theorem cancelEach (taken : State) (ps : List PortId) (s : State) (h : J s) : J (Machine.cancelEach taken ps s) := by
  induction ps generalizing s with
  | nil => exact h
  | cons p ps ih =>
    simp only [Machine.cancelEach]
    split
    · exact ih _ (K.cancelPort p s h)
    · exact ih _ (K.cancelSettle p s h)

theorem serveCancel (port : Byte) (s : State) (h : J s) : Serves J (Machine.serveCancel port s) :=
  .withPort port _ h (fun p => .accept _ (K.react _ (K.cancelPort p s h)))

theorem serveCancelAll (s : State) (h : J s) : Serves J (Machine.serveCancelAll s) :=
  .accept _ (K.react _ (K.cancelEach s allPorts s h))

theorem serveCancelSweep (all : Bool) (port : Byte) (s : State) (h : J s) : Serves J (Machine.serveCancelSweep all port s) := by
  simp only [Machine.serveCancelSweep]
  split
  · exact K.serveCancelAll _ (K.sweepEnded s h)
  · exact K.serveCancel port _ (K.sweepEnded s h)

/-! ### TRAIN (Chapter 1) -/

/-- The port's settings change, and nothing that the invariants read. -/
theorem changeTrain (p : PortId) (f : Training → Training) (s : State) (h1 : ∀ t, (f t).state = t.state)
    (h2 : ∀ t, (f t).holds = t.holds) (h : I s) : I (Machine.changeTrain p f s) := K.keep p _ s (h1 _) (h2 _) rfl h

/-- The port leaves its state, by a CONSOLE drop where it is UP, and goes to SETTLING (R23, R25). -/
theorem dropToSettling (p : PortId) (f : Training → Training) (s : State) (h3 : ∀ t, (f t).lastDrop = t.lastDrop) (hs : (s.port p).train.state ≠ .held)
    (hr : (s.port p).train.state = .offline → s.station.phase = .run) (h : J s) :
    J (toSettling p (Machine.changeTrain p f (dropIfUp p s))) := by
  have hold : ∀ a : Port, a.train.state ≠ .held → (a.train.state = .offline → s.station.phase = .run) →
      PortHoldOk s.station.phase a →
      PortHoldOk s.station.phase (enterSettling s.setup.wakeSettle { a with train := f a.train }) := fun a ha ho g =>
    PortHoldOk.of_free (by simp [enterSettling, settleInto]) rfl (g.notHeld ha).2
      (fun hp => absurd (ho (g.2.2 hp)) hp)
  simp only [toSettling, Machine.changeTrain, State.modPort_modPort, dropIfUp]
  split
  · next hu =>
    have hu := Port.isIn_iff.1 hu
    have hw : (Machine.dropLink p .console s).setup.wakeSettle = s.setup.wakeSettle := by
      simp [Machine.dropLink]
    simp only [State.modPort_setup, hw]
    refine K.afterDrop p .console _ s (hold _ hs hr) ?_ rfl rfl hu h
    exact h3 _
  · next hu =>
    have hu : (s.port p).train.state ≠ .up := fun e => hu (Port.isIn_iff.2 e)
    simp only [State.modPort_setup]
    exact K.portAfter p _ s (hold _ hs hr) (UpOrDropped.modPort_of_not_up hu (h3 _) rfl rfl) h

theorem restartWith (f : Training → Training) (p : PortId) (s : State) (h1 : ∀ t, (f t).state = t.state)
    (h2 : ∀ t, (f t).holds = t.holds) (h3 : ∀ t, (f t).lastDrop = t.lastDrop) (h : I s) :
    Serves J (Machine.restartWith f p s) := by
  have h0 := K.start s h
  simp only [Machine.restartWith]
  split
  · next hr =>
    split
    · exact .refuse _ h0
    · exact .refuse _ h0
    · next hn => exact .accept _ (K.dropToSettling p _ s (fun t => (h3 _).trans rfl) hn (fun _ => hr) h0)
  · split
    · exact .refuse _ h0
    · exact .accept _ (K.start _ (K.changeTrain p _ s (fun t => (h1 _).trans rfl) (fun t => (h2 _).trans rfl) h))

theorem serveForce (port grade : Byte) (s : State) (h : I s) : Serves J (Machine.serveForce port grade s) := by
  have h0 := K.start s h
  simp only [Machine.serveForce]
  split
  · exact .refuse _ h0
  · refine .withPort port _ h0 (fun p => ?_)
    simp only [forcePort]
    split
    · exact .refuse _ h0
    · split
      · exact .refuse _ h0
      · exact K.restartWith _ p s (fun _ => rfl) (fun _ => rfl) (fun _ => rfl) h

theorem serveOffer (port grades pref : Byte) (s : State) (h : I s) : Serves J (Machine.serveOffer port grades pref s) := by
  have h0 := K.start s h
  simp only [Machine.serveOffer]
  split
  · exact .refuse _ h0
  · refine .withPort port _ h0 (fun p => ?_)
    simp only [offerPort]
    split
    · exact .refuse _ h0
    · split
      · exact .accept _ (K.start _ (K.changeTrain p _ s (fun _ => rfl) (fun _ => rfl) h))
      · next hk =>
        refine .accept _ (K.dropToSettling p _ s (fun _ => rfl) ?_ ?_ h0)
        · intro e; rw [e] at hk; exact hk rfl
        · intro e; rw [e] at hk; exact absurd rfl hk

theorem enablePort (p : PortId) (s : State) (h : I s) : Serves J (Machine.enablePort p s) := by
  have h1 := K.changeTrain p (fun t => { t with consoleDisabled := false }) s (fun _ => rfl) (fun _ => rfl) h
  simp only [Machine.enablePort]
  split
  · exact .refuse _ (K.start s h)
  · split
    · next hd =>
      refine .accept _ (K.reEnterFree p _ ?_ (K.start _ h1))
      rw [Machine.changeTrain, State.modPort_port_self]
      exact (Attempting.of_state (Port.isIn_iff.1 hd) (by simp) (by simp) (by simp)).congr rfl
    · exact .accept _ (K.start _ h1)

/-- The port leaves its state for DISABLED with its drop settle stopped (R26, R59). -/
theorem disableNow (p : PortId) (s : State) (ho : (s.port p).train.state ≠ .offline) (h : J s) : J (Machine.disableNow p s) := by
  have hold : ∀ a : Port, a.train.state ≠ .offline → PortHoldOk s.station.phase a →
      PortHoldOk s.station.phase (enterDisabled { a with watch.dropSettle := Timer.off }) := fun a ha g =>
    PortHoldOk.of_free (by simp [enterDisabled, settleInto]) rfl rfl (fun hp => absurd (g.2.2 hp) ha)
  simp only [Machine.disableNow, stopDropSettle, State.modPort_modPort, dropIfUp]
  split
  · next hu => exact K.afterDrop p .console _ s (hold _ ho) rfl rfl rfl (Port.isIn_iff.1 hu) h
  · next hu =>
    exact K.portAfter p _ s (hold _ ho)
      (UpOrDropped.modPort_of_not_up (fun e => hu (Port.isIn_iff.2 e)) rfl rfl rfl) h

theorem disablePort (p : PortId) (s : State) (h : I s) : Serves J (Machine.disablePort p s) := by
  have h1 := K.start _ (K.changeTrain p (fun t => { t with consoleDisabled := true }) s (fun _ => rfl) (fun _ => rfl) h)
  simp only [Machine.disablePort]
  split
  · exact .accept _ h1
  · next hn =>
    refine .accept _ (K.react _ (K.endMatter p _ _ _ (K.disableNow p _ ?_ h1)))
    rw [Machine.changeTrain, State.modPort_port_self]
    intro e
    exact hn (by simp [Port.isIn, show (s.port p).train.state = .offline from e])

/-! ### RESET PORT (R28) -/

theorem resetPort (p : PortId) (s : State) (h : I s) : J (Machine.resetPort p s) := by
  have hold : ∀ a : Port, PortHoldOk s.station.phase a →
      PortHoldOk s.station.phase (resetReEntry s.setup.wakeSettle (portReset a)) := fun a g => by
    simp only [resetReEntry]
    split
    · next hk =>
      refine PortHoldOk.of_free ?_ rfl rfl g.2.2
      intro e
      have e : a.train.state = .held := e
      simp [portReset, Port.isIn, e] at hk
    · next hk =>
      obtain ⟨r1, r2, r3⟩ := portReEntry_facts s.setup.wakeSettle (portReset a)
      refine PortHoldOk.of_free r1 r2 (by rw [r3]; rfl) (fun hp => ?_)
      have e := g.2.2 hp
      exact absurd (show ((portReset a).isIn .disabled || (portReset a).isIn .offline) = true by
        simp [portReset, Port.isIn, e]) hk
  have h1 : I (resetLinkDown p s) := by
    simp only [resetLinkDown]
    split
    · exact K.raisedFirst _ _ h
    · exact h
  have e1 : (resetLinkDown p s).station = s.station ∧ (resetLinkDown p s).port p = s.port p := by
    simp only [resetLinkDown]; split <;> simp
  refine K.react _ ?_
  have h2 : J ((resetLinkDown p s).modPort p (fun pt => resetReEntry s.setup.wakeSettle (portReset pt))) := by
    refine K.leaves p _ _ ?_ (fun hu => Or.inr ?_) h1
    · rw [e1.1, e1.2]; exact hold _
    · rw [e1.2] at hu
      have hi : (s.port p).isIn .up = true := Port.isIn_iff.2 hu
      have hs : (resetLinkDown p s).summary.linkDown.has p = true := by
        simp only [resetLinkDown, hi, if_true, raise_summary, Summary.add]
        rw [PortSet.has_insert]; simp
      rw [State.modPort_port_self, e1.2]
      have hl : (portReset (s.port p)).train.lastDrop = some .console := by simp [portReset, hi]
      refine ⟨?_, ?_, ?_, hs⟩
      all_goals simp only [resetReEntry, portReEntry]
      · split
        · rw [hl]; rfl
        · split
          · change (portReset (s.port p)).train.lastDrop.isSome = true; rw [hl]; rfl
          · change (portReset (s.port p)).train.lastDrop.isSome = true; rw [hl]; rfl
      all_goals
        split
        · rfl
        · split <;> rfl
  simp only [resetMatter]
  split
  · exact K.waitingDropped p _ h2
  · exact K.stopped _ _ _ h2
  · exact h2

/-! ### SETUP, LOCK, CALIBRATE and the queries -/

theorem serveLock (s : State) (h : I s) : Serves J (Machine.serveLock s) := by
  simp only [Machine.serveLock]
  split
  · next hp => exact .accept _ (K.enterRun _ (by simp [hp]) (K.controller _ s rfl rfl (fun _ => rfl) h))
  · exact .accept _ (K.start s h)

theorem serveCalibrate (s : State) (hp : s.station.phase = .setup) (h : I s) : Serves J (Machine.serveCalibrate s) :=
  .accept _ (K.enterCalibrating s (by rw [hp]; simp) h)

theorem serveSummary (s : State) (h : I s) : Serves J (Machine.serveSummary s) := by
  refine ⟨?_, K.start _ (K.reported s h)⟩
  rintro a ⟨⟩; simp [answerBytes, summaryPage, portSetBytes]

theorem serveEcho (port pair index : Byte) (s : State) (h : I s) : Serves J (Machine.serveEcho port pair index s) := by
  have h0 := K.start s h
  simp only [Machine.serveEcho]
  split
  · exact .refuse _ h0
  · exact .withPort port _ h0 (fun p => .dataOf _ _ (echoPage_length p _ index s) h0)

theorem serveResetStation (s : State) (h : I s) : Serves J (Machine.serveResetStation s) :=
  ⟨by rintro a ⟨⟩, K.reset _ s rfl rfl h⟩

end OpsClosed

end Sys2Proof.Machine
end

section
/-! SUPPORT. The setup store keeps every item in its range (Table 11-3), and any request by its payload under the moves of
`OpsClosed`. -/

namespace Sys2Proof.Machine

open Sys2Proof

/-! ### Setup items (R187, Table 11-3) -/

theorem clamp_mem {lo hi : Nat} (h : lo ≤ hi) (n : Nat) : lo ≤ clamp lo hi n ∧ clamp lo hi n ≤ hi := by
  simp only [clamp]
  split
  · omega
  · split <;> omega

theorem tableOk_iff (t : Vector Segment 4) : TableOk t ↔
    (t[0].boundary ≤ t[1].boundary ∧ t[1].boundary ≤ t[2].boundary ∧ t[2].boundary ≤ t[3].boundary ∧ t[3].boundary ≤ 4095) ∧
      t[0].cls ≤ 7 ∧ t[1].cls ≤ 7 ∧ t[2].cls ≤ 7 ∧ t[3].cls ≤ 7 := by
  constructor
  · rintro ⟨a, b, c, d, e⟩
    exact ⟨⟨a, b, c, d⟩, e 0, e 1, e 2, e 3⟩
  · rintro ⟨⟨a, b, c, d⟩, e0, e1, e2, e3⟩
    refine ⟨a, b, c, d, fun i => ?_⟩
    fin_cases i
    · exact e0
    · exact e1
    · exact e2
    · exact e3

/-- A segment entry in its range. -/
def SegmentOk (e : Segment) : Prop := e.boundary ≤ 4095 ∧ e.cls ≤ 7

theorem segmentOf_ok (word : Nat) : SegmentOk (segmentOf word) := by
  simp only [SegmentOk, segmentOf]; omega

/-- The walk over a table of entries in their ranges (R187). -/
theorem raiseTable_ok (t : Vector Segment 4) (h : ∀ i : Fin 4, SegmentOk t[i]) : TableOk (raiseTable t) := by
  have h0 := h 0; have h1 := h 1; have h2 := h 2; have h3 := h 3
  simp only [SegmentOk] at h0 h1 h2 h3
  rw [tableOk_iff]
  refine ⟨⟨?_, ?_, ?_, ?_⟩, h0.2, h1.2, h2.2, h3.2⟩
  · exact le_max_left _ _
  · exact le_max_left _ _
  · exact le_max_left _ _
  · exact max_le (max_le (max_le h0.1 h1.1) h2.1) h3.1

theorem TableOk.segment {t : Vector Segment 4} (h : TableOk t) (i : Fin 4) : SegmentOk t[i] := by
  obtain ⟨⟨a, b, c, d⟩, e0, e1, e2, e3⟩ := (tableOk_iff t).1 h
  fin_cases i
  · exact ⟨a.trans (b.trans (c.trans d)), e0⟩
  · exact ⟨b.trans (c.trans d), e1⟩
  · exact ⟨c.trans d, e2⟩
  · exact ⟨d, e3⟩

theorem storeSegment_ok (p : PortId) (i : Fin 4) (word : Nat) {u : Setup} (h : SetupOk u) :
    SetupOk (storeSegment p i word u).1 := by
  have hw : TableOk (raiseTable ((u.segments[p.val]).set i.val (segmentOf word) i.isLt)) := by
    refine raiseTable_ok _ (fun j => ?_)
    by_cases hij : i = j
    · subst hij
      simpa using segmentOf_ok word
    · have hne : ¬ i.val = j.val := fun e => hij (Fin.ext e)
      simpa [Vector.getElem_set, hne] using (h.tables p).segment j
  refine { h with tables := fun q => ?_ }
  simp only [storeSegment, Vector.getElem_set]
  split
  · exact hw
  · exact h.tables q

theorem storeDelay_ok (cls n : Nat) {u : Setup} (h : SetupOk u) : SetupOk (storeDelay cls n u).1 := by
  refine { h with delay := fun i => ?_ }
  have hd := clamp_mem (show 3500 ≤ 7000 by decide) n
  have hi := h.delay i
  simp only [storeDelay, Fin.getElem_fin, Vector.getElem_setIfInBounds] at hi ⊢
  split
  · exact hd
  · exact hi

/-- A setup item that is written stays in its range. -/
theorem storeItem_ok {n : Nat} {ops : List Byte} {u v : Setup} {b : Bool} (h : SetupOk u) (hs : storeItem n ops u = some (v, b)) :
    SetupOk v := by
  have port : ∀ (i : Fin 4) (w : Nat), (portOf (byteAt ops 0)).map (fun p => storeSegment p i w u) = some (v, b) → SetupOk v :=
    fun i w hm => by
      obtain ⟨p, -, hp⟩ := Option.map_eq_some_iff.1 hm
      have := storeSegment_ok p i w h
      rwa [hp] at this
  unfold storeItem at hs
  dsimp only at hs
  split at hs
  case h_1 => cases hs; exact storeDelay_ok _ _ h
  case h_2 => exact port 0 _ hs
  case h_3 => exact port 1 _ hs
  case h_4 => exact port 2 _ hs
  case h_5 => exact port 3 _ hs
  case h_6 =>
    obtain ⟨p, -, hp⟩ := Option.map_eq_some_iff.1 hs
    cases hp; exact { h with }
  case h_7 =>
    obtain ⟨p, -, hp⟩ := Option.map_eq_some_iff.1 hs
    cases hp; exact { h with }
  case h_8 => cases hs; exact { h with alpha := (clamp_mem (show 0 ≤ 63 by decide) _).2 }
  case h_9 => cases hs; exact { h with detect := clamp_mem (by decide) _ }
  case h_10 => cases hs; exact { h with busy := clamp_mem (by decide) _ }
  case h_11 => cases hs; exact { h with mismatch := clamp_mem (by decide) _ }
  case h_12 => cases hs; exact { h with junctionLimit := clamp_mem (by decide) _ }
  case h_13 => cases hs; exact { h with cross := clamp_mem (by decide) _ }
  case h_14 =>
    cases hs
    have hc := clamp_mem (show 8 ≤ 128 by decide) (byteAt ops 0).toNat
    have hw : 8 ≤ clamp 8 128 (byteAt ops 0).toNat / 8 * 8 ∧ clamp 8 128 (byteAt ops 0).toNat / 8 * 8 ≤ 128 ∧
        clamp 8 128 (byteAt ops 0).toNat / 8 * 8 % 8 = 0 := by omega
    exact { h with window := hw }
  case h_15 => cases hs; exact { h with thresholdE := clamp_mem (by decide) _ }
  case h_16 => cases hs; exact { h with thresholdI := clamp_mem (by decide) _ }
  case h_17 => cases hs; exact { h with thresholdM := clamp_mem (by decide) _ }
  case h_18 => cases hs; exact { h with dropSettle := (clamp_mem (show 0 ≤ 4 by decide) _).2 }
  case h_19 => cases hs; exact { h with wakeSettle := (clamp_mem (show 0 ≤ 4 by decide) _).2 }
  case h_20 =>
    obtain ⟨r, -, hr⟩ := Option.map_eq_some_iff.1 hs
    cases hr; exact { h with }
  case h_21 => cases hs; exact { h with }
  case h_22 => cases hs; exact { h with }
  case h_23 => cases hs; exact { h with downshiftAttempts := clamp_mem (by decide) _ }
  case h_24 => cases hs; exact { h with skewLimit := clamp_mem (by decide) _ }
  case h_25 => cases hs; exact { h with budgetWindow := clamp_mem (by decide) _ }
  case h_26 => cases hs; exact { h with shotThreshold := clamp_mem (by decide) _ }
  case h_27 => cases hs; exact { h with paceTime := clamp_mem (by decide) _ }
  case h_28 => cases hs; exact { h with paceInterval := clamp_mem (by decide) _ }
  case h_29 => cases hs

/-! ### Phases that the checks let through (R173, R175) -/

/-- A SETUP or CALIBRATE that passes the checks is taken in SETUP. -/
theorem setup_of_passes {b : Bool} {payload : List Byte} {st : Station} (h : firstFailure b payload st = none)
    (hk : byteAt payload 0 = 6 ∨ byteAt payload 0 = 8) : st.phase = .setup := by
  unfold firstFailure at h
  split at h
  · cases h
  · split at h
    · cases h
    · split at h
      · cases h
      · split at h
        · cases h
        · next hp =>
          rcases hk with hk | hk <;> simp only [phaseRefusal, hk] at hp <;> by_contra hc <;> simp [hc] at hp
          split at hp <;> simp at hp

namespace OpsClosed

variable {I J : State → Prop} (K : OpsClosed I J)
include K

theorem serveSetup (item : Byte) (ops : List Byte) (s : State) (hp : s.station.phase = .setup) (h : I s) :
    Serves J (Machine.serveSetup item ops s) := by
  simp only [Machine.serveSetup]
  split
  · next su adj hs => exact .accept _ (K.stored su s hp (fun g => storeItem_ok g hs) h)
  · exact .refuse _ (K.start s h)

theorem serveSegment (i : Fin 4) (port hi lo : Byte) (s : State) (hp : s.station.phase = .setup) (h : I s) :
    Serves J (Machine.serveSegment i port hi lo s) :=
  .withPort port _ (K.start s h) (fun p => .accept _ (K.stored _ s hp (fun g => storeSegment_ok p i _ g) h))

theorem serveTrain (payload : List Byte) (s : State) (h : I s) : Serves J (Machine.serveTrain payload s) := by
  have h0 := K.start s h
  simp only [Machine.serveTrain]
  split
  · exact .withPort _ _ h0 (fun p => K.restartWith _ p s (fun _ => rfl) (fun _ => rfl) (fun _ => rfl) h)
  · split
    · exact .withPort _ _ h0 (fun p => K.restartWith _ p s (fun _ => rfl) (fun _ => rfl) (fun _ => rfl) h)
    · split
      · exact K.serveForce _ _ s h
      · split
        · exact K.serveOffer _ _ _ s h
        · split
          · exact .withPort _ _ h0 (fun p => K.enablePort p s h)
          · exact .withPort _ _ h0 (fun p => K.disablePort p s h)

theorem serveQuery (payload : List Byte) (s : State) (h : I s) : Serves J (Machine.serveQuery payload s) := by
  have h0 := K.start s h
  simp only [Machine.serveQuery]
  split
  · exact K.serveSummary s h
  · split
    · exact .withPort _ _ h0 (fun p => .dataOf _ _ (portPage_length _ p s) h0)
    · split
      · exact .withPort _ _ h0 (fun p => .dataOf _ _ (countersPage_length _ p s) h0)
      · split
        · exact .withPort _ _ h0 (fun p => .dataOf _ _ (diagHeadPage_length p s) h0)
        · split
          · exact K.serveEcho _ _ _ s h
          · split
            · exact .withPort _ _ h0 (fun p => .dataOf _ _ (lengthPage_length p s) h0)
            · split
              · exact .dataOf _ _ (stationPage_length _ s) h0
              · exact .dataOf _ _ (claimEntryPage_length _ s) h0

theorem serveCancelFlags (payload : List Byte) (s : State) (h : I s) : Serves J (Machine.serveCancelFlags payload s) := by
  have h0 := K.start s h
  simp only [Machine.serveCancelFlags]
  split
  · exact K.serveCancelSweep _ _ s h0
  · split
    · exact K.serveCancelAll s h0
    · exact K.serveCancel _ s h0

/-- A request that has passed its checks, by its payload alone. -/
theorem serveAny (payload : List Byte) (s : State)
    (hp : byteAt payload 0 = 6 ∨ byteAt payload 0 = 8 → s.station.phase = .setup) (h : I s) :
    Serves J (Machine.serveAny payload s) := by
  have h0 := K.start s h
  simp only [Machine.serveAny]
  split
  · exact K.serveMeasure _ _ _ _ _ s h
  · split
    · exact K.serveSweep _ _ _ _ _ s h
    · split
      · exact K.serveCancelFlags _ s h
      · split
        · exact K.serveTrain _ s h
        · split
          · exact K.serveQuery _ s h
          · split
            · next hk => exact K.serveSetup _ _ s (hp (Or.inl hk)) h
            · split
              · exact K.serveLock s h
              · split
                · next hk => exact K.serveCalibrate s (hp (Or.inr hk)) h
                · split
                  · exact .withPort _ _ h0 (fun p => .accept _ (K.resetPort p s h))
                  · exact K.serveResetStation s h

end OpsClosed

end Sys2Proof.Machine
end

section
/-! SUPPORT. Any command under the moves of `OpsClosed`: the peer frames and requests that the line delivers, and, for a property that
does not read the line (`LineFree`), the commands of the line itself. -/

namespace Sys2Proof.Machine

open Sys2Proof

/-- A property under the moves of `Closed` is kept by the shared operations. -/
theorem SharedMoves.ofClosed {J : State → Prop} (C : Closed J) : SharedMoves J where
  raised := C.raised
  quiet sw b s h := C.quiet s _ _ sw b _ _ _ h
  merged p r e s _ h := C.mergeInto p r e s h
  added p r s _ _ h := C.addEntry p r s h
  requested p r s t ht h := C.autoRequest p r s t ht h
  swept := C.sweepAdvance
  sweepEnded := C.endSweep
  sweepRetired := C.retireSweep
  outcome := C.finalOutcome
  waitingDropped := C.dropWaiting
  react := C.react
  stopped := C.stopChannel
  stoppedNow ch o s _ h := C.stopNow ch o s h
  finished ch o s _ h := C.finishBurst ch o s h
  chan ch f s hf h := C.channel ch f s
    (fun c => ⟨Or.inl (hf c).2.2.1, Or.inl (hf c).2.2.2⟩) h
  burst ch _ s _ h := C.enterBursting ch s h
  waitsYield ch _ s _ h := C.channel ch _ s (fun _ => ⟨Or.inl rfl, Or.inl rfl⟩) h

/-- Line trouble at the channels. -/
theorem SharedMoves.trouble {J : State → Prop} (K : SharedMoves J) (s : State) (h : J s) : J (Machine.trouble s) := by
  have one : ∀ ch s, J s → J (troubleAt ch s) := fun ch s h => by
    simp only [troubleAt]
    split
    · exact K.stopped ch _ s h
    · exact K.stopped ch _ s h
    · exact K.stopped ch _ s h
    · exact h
    · exact h
    · exact h
  exact one 1 _ (one 0 s h)

/-- The commands of the line: what it reads, sends and loses. -/
def ofLine : Instr → Bool
  | .claimFrameDeparture _ _ => true
  | .releaseDeparture _ _ => true
  | .frameStart => true
  | .arbitrationLoss => true
  | .transmitFault => true
  | .receiveCheckFailure _ _ _ => true
  | .reportDeparture _ => true
  | .alertDeparture _ => true
  | .rejoinDeparture _ => true
  | .stuckEntry => true
  | .lineReturn => true
  | .returnListenInEnd => true
  | .lineIdle => true
  | .strayBit => true
  | _ => false

/-- A block that answers a request as the moves allow, whatever the property, once the request has passed its checks. -/
def Serving (b : Bool) (payload : List Byte) (serve : State → Served) : Prop :=
  ∀ I J : State → Prop, OpsClosed I J → ∀ s, firstFailure b payload s.station = none → I s → Serves J (serve s)

/-- What a property needs beside `OpsClosed` to be kept by every command. -/
structure ExecClosed (I J : State → Prop) : Prop extends OpsClosed I J where
  ended : ∀ s, I s → I (endFrame s)
  noted : ∀ s, I s → I { s with line.duplicate := true }
  counted : ∀ (c : Counters) (n : Count16) (s : State), I s → I { s with counters := c, unknownReleases := n }
  rejoins : ∀ (c : StartCause) (s : State), I s → I (placeRejoin c s)
  layer : ∀ (b : Bool) (payload : List Byte) (serve : State → Served) (s : State), Serving b payload serve → I s →
    J (requestLayer b payload serve s)
  line : ∀ (c : Instr) (s : State), ofLine c = true → I s → Answers J (exec c s)

/-! ### Every request row hands the layer a block of the model -/

namespace Serving

theorem of_any {b : Bool} {payload : List Byte} {serve : State → Served}
    (h : ∀ I J : State → Prop, OpsClosed I J → ∀ s, I s → Serves J (serve s)) : Serving b payload serve :=
  fun I J K s _ hi => h I J K s hi

theorem anyPayload (b : Bool) (payload : List Byte) : Serving b payload (serveAny payload) :=
  fun _ _ K s hf hi => K.serveAny payload s (fun hk => setup_of_passes hf hk) hi

theorem restart {b : Bool} {payload : List Byte} (port : Byte) : Serving b payload (withPort port (restartWith id)) :=
  of_any fun _ _ K s h => .withPort port _ (K.start s h)
    (fun p => K.restartWith _ p s (fun _ => rfl) (fun _ => rfl) (fun _ => rfl) h)

theorem restartFull {b : Bool} {payload : List Byte} (port : Byte) :
    Serving b payload (withPort port (restartWith clearForce)) :=
  of_any fun _ _ K s h => .withPort port _ (K.start s h)
    (fun p => K.restartWith _ p s (fun _ => rfl) (fun _ => rfl) (fun _ => rfl) h)

/-- A query of one port's page. -/
theorem portQuery {b : Bool} {payload : List Byte} (port q : Byte) (page : PortId → State → List Byte)
    (hp : ∀ p s, (page p s).length ≤ 12) : Serving b payload (withPort port (fun p => dataOf q (page p))) :=
  of_any fun _ _ K s h => .withPort port _ (K.start s h) (fun p => .dataOf q _ (hp p s) (K.start s h))

end Serving

namespace ExecClosed

variable {I J : State → Prop} (K : ExecClosed I J)
include K

/-! ### Peer frames -/

theorem raiseDuplicate (s : State) (h : I s) : J (Machine.raiseDuplicate s) := by
  simp only [Machine.raiseDuplicate]
  split
  · exact K.start s h
  · exact K.react _ (K.trouble _ (K.start _ (K.raisedFirst _ _ (K.noted s h))))

theorem strikeLocal (ch : ChannelId) (f : Option Finding) (s : State) (h : J s) : J (Machine.strikeLocal ch f s) := by
  simp only [Machine.strikeLocal]
  split
  · split
    · exact K.stopped ch _ s h
    · exact h
  · exact h

theorem withdrawQueued (c : ForeignClaim) (ch : ChannelId) (s : State) (h : J s) : J (Machine.withdrawQueued c ch s) := by
  simp only [Machine.withdrawQueued]
  split
  · exact h
  · split
    · exact K.stopped ch _ s h
    · exact h

end ExecClosed

/-! ### A claim that enters the view (R159) -/

theorem removeFirstAt_sublist (e : Nat) (v : List ViewEntry) : (removeFirstAt e v).Sublist v := by
  induction v with
  | nil => exact List.Sublist.refl _
  | cons x xs ih =>
    simp only [removeFirstAt]
    split
    · exact List.sublist_cons_self x xs
    · exact ih.cons_cons x

theorem makeRoom_sublist (v : List ViewEntry) : (makeRoom v).Sublist v := by
  simp only [makeRoom]
  split
  · exact List.Sublist.refl _
  · split
    · exact List.Sublist.refl _
    · exact removeFirstAt_sublist _ v

/-- The earliest expiry of a list is that of one of its entries. -/
theorem earliestExpiry_mem {v : List ViewEntry} {e : Nat} (h : earliestExpiry v = some e) : ∃ x ∈ v, x.expiry = e := by
  induction v generalizing e with
  | nil => cases h
  | cons x xs ih =>
    simp only [earliestExpiry] at h
    split at h
    · cases h; exact ⟨x, List.mem_cons_self .., rfl⟩
    · next f hf =>
      cases h
      rcases le_total x.expiry f with hle | hle
      · exact ⟨x, List.mem_cons_self .., (min_eq_left hle).symm⟩
      · obtain ⟨y, hy, rfl⟩ := ih hf
        exact ⟨y, List.mem_cons_of_mem _ hy, (min_eq_right hle).symm⟩

theorem removeFirstAt_length {v : List ViewEntry} {e : Nat} (h : ∃ x ∈ v, x.expiry = e) :
    (removeFirstAt e v).length + 1 = v.length := by
  induction v with
  | nil => obtain ⟨x, hx, -⟩ := h; cases hx
  | cons x xs ih =>
    simp only [removeFirstAt]
    split
    · rfl
    · next hne =>
      obtain ⟨y, hy, he⟩ := h
      rcases List.mem_cons.1 hy with rfl | hy
      · exact absurd he hne
      · simp only [List.length_cons, ih ⟨y, hy, he⟩]

theorem earliestExpiry_ne_none {v : List ViewEntry} (h : v ≠ []) : earliestExpiry v ≠ none := by
  cases v with
  | nil => exact absurd rfl h
  | cons x xs =>
    simp only [earliestExpiry]
    split <;> simp

/-- R159 step 3 leaves room for one entry. -/
theorem makeRoom_length {v : List ViewEntry} (h : v.length ≤ 16) : (makeRoom v).length < 16 := by
  simp only [makeRoom]
  split
  · next hl => exact hl
  · next hl =>
    simp only [viewCapacity] at hl
    split
    · next he => exact absurd he (earliestExpiry_ne_none (by rintro rfl; simp at hl))
    · next e he =>
      have := removeFirstAt_length (earliestExpiry_mem he)
      omega

theorem mem_withoutKey {st : StationNo} {n : Byte} {v : List ViewEntry} {x : ViewEntry} :
    x ∈ withoutKey st n v ↔ x ∈ v ∧ ¬(x.station = st ∧ x.number = n) := by
  simp only [withoutKey, List.mem_filter, decide_eq_true_eq]

/-- A view without the new claim's key is sound with it (R159). -/
theorem ViewOk.enter {v : List ViewEntry} (h : ViewOk v) (x : ViewEntry)
    (hx : ∀ y ∈ v, ¬(y.station = x.station ∧ y.number = x.number)) : ViewOk (makeRoom v ++ [x]) := by
  refine ⟨?_, List.pairwise_append.2 ⟨h.2.sublist (makeRoom_sublist v), by simp, ?_⟩⟩
  · have := makeRoom_length h.1
    simp only [List.length_append, List.length_singleton]; omega
  · intro y hy z hz
    rw [List.mem_singleton.1 hz]
    exact hx y ((makeRoom_sublist v).subset hy)

namespace ExecClosed

variable {I J : State → Prop} (K : ExecClosed I J)
include K

theorem takeClaim (c : ForeignClaim) (s : State) (h : J s) : J (Machine.takeClaim c s) := by
  have h1 : J { s with view := withoutKey c.station c.number s.view } := K.viewFilter _ s h
  simp only [Machine.takeClaim]
  refine K.withdrawQueued c 1 _ (K.withdrawQueued c 0 _ ?_)
  split
  · exact h1
  · simp only [claimStands]
    refine K.strikeLocal 1 _ _ (K.strikeLocal 0 _ _ ?_)
    simp only [enterView, removeLost]
    refine K.view _ { s with view := withoutKey c.station c.number s.view } (fun g => ?_) h1
    refine ViewOk.enter (g.sublist List.filter_sublist) _ (fun y hy => ?_)
    exact (mem_withoutKey.1 (List.mem_filter.1 hy).1).2

theorem deliverClaim (n t p d : Byte) (st : StationNo) (s : State) (h : I s) : J (Machine.deliverClaim n t p d st s) := by
  simp only [Machine.deliverClaim]
  split
  · exact K.start s h
  · exact K.react _ (K.takeClaim _ s (K.start s h))

theorem deliverRelease (n t : Byte) (st : StationNo) (s : State) (h : I s) : J (Machine.deliverRelease n t st s) := by
  simp only [Machine.deliverRelease]
  split
  · exact K.react _ (K.viewFilter _ s (K.start s h))
  · exact K.start _ (K.counted s.counters _ s h)

theorem deliverRejoin (c : Byte) (st : StationNo) (s : State) (h : I s) : J (Machine.deliverRejoin c st s) :=
  K.react _ (K.viewFilter _ s (K.start s h))

theorem takePeer (src : BitVec 4) (deliver : StationNo → State → State) (s : State)
    (hd : ∀ st u, I u → J (deliver st u)) (h : I s) : Answers J (.next (Machine.takePeer src deliver s)) := by
  refine .next ?_
  simp only [Machine.takePeer]
  split
  · split
    · exact K.start _ (K.ended s h)
    · split
      · exact K.raiseDuplicate _ (K.ended s h)
      · exact hd _ _ (K.ended s h)
  · exact K.start s h

theorem ownNumberFrameTaken (k d : BitVec 4) (payload : List Byte) (s : State) (h : I s) :
    Answers J (execOwnNumberFrameTaken k d payload s) := by
  refine .next ?_
  split
  · exact K.raiseDuplicate _ (K.ended s h)
  · exact K.start s h

theorem actOnFrame (f : RxFrame) (s : State) (h : I s) : J (Machine.actOnFrame f s) := by
  simp only [Machine.actOnFrame]
  split
  · exact K.raiseDuplicate s h
  · exact K.start s h
  · exact K.deliverClaim _ _ _ _ _ s h
  · exact K.deliverRelease _ _ _ s h
  · exact K.deliverRejoin _ _ s h
  · exact K.layer _ _ _ s (.anyPayload _ _) h
  · exact K.start s h

theorem discardedFrame (f : RxFrame) (v : Bool) (s : State) (h : I s) : Answers J (execDiscardedFrame f v s) := by
  refine .next ?_
  split
  · split
    · exact K.start _ (K.ended s h)
    · exact K.actOnFrame f _ (K.ended s h)
  · exact K.start s h

/-! ### Requests -/

theorem request (b : Bool) (payload : List Byte) (serve : State → Served) (s : State) (hs : Serving b payload serve) (h : I s) :
    Answers J (.next (takeRequest b payload serve s)) := by
  refine .next ?_
  simp only [takeRequest]
  split
  · exact K.layer b payload serve _ hs (K.ended s h)
  · exact K.start s h

theorem badKindRequest (b : Bool) (payload : List Byte) (s : State) (h : I s) : Answers J (execBadKindRequest b payload s) := by
  simp only [execBadKindRequest]
  split
  · refine .next ?_
    split
    · exact K.start _ (K.ended s h)
    · exact K.start s h
  · exact K.request b payload _ s (.anyPayload b payload) h

theorem listenTimerExpiry (s : State) (h : I s) : Answers J (execListenTimerExpiry s) := by
  refine .next ?_
  split
  · next hp =>
    have h1 := K.rejoins s.station.cause _
      (K.controller { s.station with window := Timer.off } s rfl rfl (fun g => g) h)
    have hn : (placeRejoin s.station.cause { s with station.window := Timer.off }).station.phase ≠ .run := by
      simp only [placeRejoin]
      split
      · simp [placeFrame, hp]
      · simp [hp]
    dsimp only
    split
    · exact K.enterCalibrating _ hn h1
    · split
      · exact K.enterRun _ hn h1
      · exact K.enterSetup _ hn h1
  · exact K.start s h

/-! ### Any command -/

/-- A command keeps the property, but for a power-on reset and a launch trigger, of which each property speaks on its own. -/
theorem exec (c : Instr) (s : State) (hp : ∀ straps, c ≠ .powerOnReset straps)
    (hl : ∀ ch, c = .launchTrigger ch → Answers J (execLaunchTrigger ch s)) (h : I s) : Answers J (Machine.exec c s) := by
  cases c with
  | powerOnReset straps => exact absurd rfl (hp straps)
  | hardReset straps => exact .next (K.reset _ s rfl rfl h)
  | energyAppears p b => exact K.energyAppears p b s h
  | energyDisappears p => exact K.energyDisappears p s h
  | symbolError p => exact K.symbolError p s h
  | idleError p => exact K.idleError p s h
  | marginDip p => exact K.marginDip p s h
  | lossOfLock p => exact K.lossOfLock p s h
  | energyWake p => exact K.energyWake p s h
  | settleExpiry p => exact K.settleExpiry p s h
  | offerPageSend p => exact K.offerPageSend p s h
  | crossoverAlternation p => exact K.crossoverAlternation p s h
  | offerPageHearing p page => exact K.offerPageHearing p page s h
  | legacyDetection p => exact K.legacyDetection p s h
  | offeringLimit p => exact K.offeringLimit p s h
  | identificationSend p => exact K.identificationSend p s h
  | identificationHearing p x y b => exact K.identificationHearing p x y b s h
  | identificationLimit p => exact K.identificationLimit p s h
  | pairQualifies p x => exact K.pairQualifies p x s h
  | crossingListenLimit p => exact K.crossingListenLimit p s h
  | identifiedMarkerHeard p => exact K.identifiedMarkerHeard p s h
  | probedMarkerHeard p => exact K.probedMarkerHeard p s h
  | probeLaunch p => exact K.probeLaunch p s h
  | partnerProbe p x => exact K.partnerProbe p x s h
  | probeReturn p x n => exact K.probeReturn p x n s h
  | doneMarkerHeard p => exact K.doneMarkerHeard p s h
  | resolvingLimit p => exact K.resolvingLimit p s h
  | errorFreeTarget p => exact K.errorFreeTarget p s h
  | qualifyingLimit p => exact K.qualifyingLimit p s h
  | backoffExpiry p => exact K.backoffExpiry p s h
  | windowExpiry p => exact K.windowExpiry p s h
  | silence p => exact K.silence p s h
  | dropSettleExpiry p => exact K.dropSettleExpiry p s h
  | measure via port pairs reach av intr =>
    exact K.request _ _ _ s (.of_any fun _ _ L u => L.serveMeasure port pairs reach av intr u) h
  | sweep via hi lo reach av period =>
    exact K.request _ _ _ s (.of_any fun _ _ L u => L.serveSweep hi lo reach av period u) h
  | sweepPeriodExpiry => exact K.sweepPeriodExpiry s h
  | cancel via port other => exact K.request _ _ _ s (.of_any fun _ _ L u g => L.serveCancel port u (L.start u g)) h
  | cancelAll via port other => exact K.request _ _ _ s (.of_any fun _ _ L u g => L.serveCancelAll u (L.start u g)) h
  | cancelSweep via all port other =>
    exact K.request _ _ _ s (.of_any fun _ _ L u g => L.serveCancelSweep all port u (L.start u g)) h
  | restart via port => exact K.request _ _ _ s (.restart port) h
  | restartFull via port => exact K.request _ _ _ s (.restartFull port) h
  | force via port grade => exact K.request _ _ _ s (.of_any fun _ _ L u => L.serveForce port grade u) h
  | offer via port grades pref => exact K.request _ _ _ s (.of_any fun _ _ L u => L.serveOffer port grades pref u) h
  | enable via port =>
    exact K.request _ _ _ s (.of_any fun _ _ L u g => .withPort port _ (L.start u g) (fun p => L.enablePort p u g)) h
  | disable via port =>
    exact K.request _ _ _ s (.of_any fun _ _ L u g => .withPort port _ (L.start u g) (fun p => L.disablePort p u g)) h
  | resetPort via port =>
    exact K.request _ _ _ s (.of_any fun _ _ L u g => .withPort port _ (L.start u g)
      (fun p => .accept _ (L.resetPort p u g))) h
  | resetStation via port => exact K.request _ _ _ s (.of_any fun _ _ L u => L.serveResetStation u) h
  | querySummary via => exact K.request _ _ _ s (.of_any fun _ _ L u => L.serveSummary u) h
  | queryPort via port page => exact K.request _ _ _ s (.portQuery port 1 (portPage page) (portPage_length page)) h
  | queryCounters via port page => exact K.request _ _ _ s (.portQuery port 2 (countersPage page) (countersPage_length page)) h
  | queryDiagHead via port => exact K.request _ _ _ s (.portQuery port 3 diagHeadPage diagHeadPage_length) h
  | queryEcho via port pair index => exact K.request _ _ _ s (.of_any fun _ _ L u => L.serveEcho port pair index u) h
  | queryLength via port => exact K.request _ _ _ s (.portQuery port 5 lengthPage lengthPage_length) h
  | queryStation via page =>
    exact K.request _ _ _ s (.of_any fun _ _ L u g => .dataOf 6 _ (stationPage_length page u) (L.start u g)) h
  | queryClaimEntry via index =>
    exact K.request _ _ _ s (.of_any fun _ _ L u g => .dataOf 7 _ (claimEntryPage_length index u) (L.start u g)) h
  | setup via item ops =>
    exact K.request _ _ _ s (fun _ _ L u hf g => L.serveSetup item _ u (setup_of_passes hf (Or.inl rfl)) g) h
  | setupSegmentEntry via i port hi lo =>
    exact K.request _ _ _ s (fun _ _ L u hf g => L.serveSegment i port hi lo u (setup_of_passes hf (Or.inl rfl)) g) h
  | lock via => exact K.request _ _ _ s (.of_any fun _ _ L u => L.serveLock u) h
  | calibrate via =>
    exact K.request _ _ _ s (fun _ _ L u hf g => L.serveCalibrate u (setup_of_passes hf (Or.inr rfl)) g) h
  | channelSettleExpiry ch => exact K.channelSettleExpiry ch s h
  | holdoffEnd ch => exact K.holdoffEnd ch s h
  | yieldLimit ch => exact K.yieldLimit ch s h
  | launchTrigger ch => exact hl ch rfl
  | busyCheckFailure ch x => exact K.busyCheckFailure ch x s h
  | captureClose ch input => exact K.captureClose ch input s h
  | pairResultReturn ch => exact K.pairResultReturn ch s h
  | burstEnd ch => exact K.burstEnd ch s h
  | budgetWindowExpiry => exact K.budgetWindowExpiry s h
  | paceIntervalPassed => exact K.paceIntervalPassed s h
  | claimTaken src n t p d => exact K.takePeer src _ s (fun st u => K.deliverClaim n t p d st u) h
  | releaseTaken src n t => exact K.takePeer src _ s (fun st u => K.deliverRelease n t st u) h
  | rejoinTaken src cause => exact K.takePeer src _ s (fun st u => K.deliverRejoin cause st u) h
  | viewEntryActive st n => exact K.viewEntryActive st n s h
  | viewEntryExpiry st n => exact K.viewEntryExpiry st n s h
  | ownNumberFrameTaken k d payload => exact K.ownNumberFrameTaken k d payload s h
  | listenTimerExpiry => exact K.listenTimerExpiry s h
  | calibrationDone input => exact K.calibrationDone input s h
  | setupWindowExpiry => exact K.setupWindowExpiry s h
  | discardedFrame f v => exact K.discardedFrame f v s h
  | badKindRequest b payload => exact K.badKindRequest b payload s h
  | g2IdleStreamChange p b => exact K.g2IdleStreamChange p b s h
  | partnerLinkSignalChange p x b => exact K.partnerLinkSignalChange p x b s h
  | claimFrameDeparture ch how => exact K.line _ s rfl h
  | releaseDeparture ch how => exact K.line _ s rfl h
  | frameStart => exact K.line _ s rfl h
  | arbitrationLoss => exact K.line _ s rfl h
  | transmitFault => exact K.line _ s rfl h
  | receiveCheckFailure bytes check spacers => exact K.line _ s rfl h
  | reportDeparture how => exact K.line _ s rfl h
  | alertDeparture how => exact K.line _ s rfl h
  | rejoinDeparture how => exact K.line _ s rfl h
  | stuckEntry => exact K.line _ s rfl h
  | lineReturn => exact K.line _ s rfl h
  | returnListenInEnd => exact K.line _ s rfl h
  | lineIdle => exact K.line _ s rfl h
  | strayBit => exact K.line _ s rfl h

end ExecClosed

/-! ### Properties that do not read the line -/

/-- A property that reads neither the line nor the counters, nor of a channel more than its measurement and shots launched. -/
structure LineFree (I J : State → Prop) : Prop extends OpsClosed I J where
  line : ∀ (l : Line) (c : Counters) (n : Count16) (s : State), I s → I { s with line := l, counters := c, unknownReleases := n }
  lineAfter : ∀ (l : Line) (c : Counters) (s : State), J s → J { s with line := l, counters := c }
  channel : ∀ (ch : ChannelId) (f : Channel → Channel) (s : State),
    (∀ c, ((f c).meas = c.meas ∨ (f c).meas = none) ∧ ((f c).launched = c.launched ∨ (f c).launched = 0)) → J s →
    J (s.modChan ch f)
  stops : ∀ (ch : ChannelId) (o : StopOutcome) (s : State), J s → J (stopNow ch o s)

namespace LineFree

variable {I J : State → Prop} (K : LineFree I J)
include K

theorem lines (l : Line) (s : State) (h : I s) : I { s with line := l } := K.line l s.counters s.unknownReleases s h

theorem places (f : Frame) (s : State) (h : I s) : I (placeFrame f s) := K.lines _ s h

theorem departs (how : Departure) (test : Frame → Bool) (s : State) (h : I s) : I (departFrame how test s) :=
  K.line _ _ s.unknownReleases s h

theorem claimDeparted (ch : ChannelId) (how : Departure) (s : State) (h : J s) : J (Machine.claimDeparted ch how s) := by
  simp only [Machine.claimDeparted]
  split
  · simp only [claimSentIntact]
    have h1 : J (s.modChan ch startHoldoff) := K.channel ch _ s (fun _ => ⟨Or.inl rfl, Or.inl rfl⟩) h
    split
    · next l _ =>
      have h2 : J (removeLost l.priority (s.modChan ch startHoldoff).station.number l.target (s.modChan ch startHoldoff)) :=
        K.viewFilter _ _ h1
      have h3 : J (if ownFinding l (s.modChan ch startHoldoff) = some .withdrawn then s.modChan ch startHoldoff
          else removeLost l.priority (s.modChan ch startHoldoff).station.number l.target (s.modChan ch startHoldoff)) := by
        split
        · exact h1
        · exact h2
      simp only [judgeOwn]
      split
      · exact K.stops ch _ _ h3
      · split
        · exact K.stops ch _ _ h3
        · exact h3
    · exact h1
  · exact K.stops ch _ s h
  · exact K.stops ch _ s h
  · exact h

theorem channelReleased (ch : ChannelId) (s : State) (h : J s) : J (s.modChan ch Machine.channelReleased) :=
  K.channel ch _ s (fun c => by simp only [Machine.channelReleased]; split <;> exact ⟨Or.inl rfl, Or.inl rfl⟩) h

theorem rejoinLeft (how : Departure) (f : Frame) (s : State) (h : I s) : I (Machine.rejoinLeft how f s) := by
  simp only [Machine.rejoinLeft]
  split
  · exact K.places _ s h
  · split
    · exact h
    · exact K.controller _ s rfl rfl (fun g => g) h

theorem departed (how : Departure) (f : Frame) (s : State) (h : I s) : J (Machine.departed how f s) := by
  simp only [Machine.departed]
  split
  · exact K.react _ (K.claimDeparted _ how s (K.start s h))
  · exact K.react _ (K.channelReleased _ s (K.start s h))
  · exact K.react _ (K.start _ (K.rejoinLeft how f s h))
  · exact K.start s h

theorem pendingClaimStop (f : Frame) (s : State) (h : J s) : J (Machine.pendingClaimStop f s) := by
  simp only [Machine.pendingClaimStop]
  split
  · split
    · exact K.react _ (K.stops _ _ s h)
    · exact h
  · exact h

theorem enterStuck (s : State) (h : I s) : J (Machine.enterStuck s) := by
  have h1 : J (Machine.trouble (raise .lineStuck { s with line := lineStuck s.line })) :=
    K.trouble _ (K.start _ (K.raisedFirst _ _ (K.lines _ s h)))
  exact K.react _ (K.channelReleased 1 _ (K.channelReleased 0 _ (K.lineAfter _ _ _ h1)))

/-- Every command of the line keeps a property that does not read it. -/
theorem ofLine (c : Instr) (s : State) (hc : Machine.ofLine c = true) (h : I s) : Answers J (exec c s) := by
  have h0 := K.start s h
  cases c <;> cases hc
  case claimFrameDeparture ch how =>
    refine .next ?_
    split
    · exact K.react _ (K.claimDeparted ch how _ (K.start _ (K.departs _ _ s h)))
    · exact h0
  case releaseDeparture ch how =>
    refine .next ?_
    split
    · exact K.react _ (K.channelReleased ch _ (K.start _ (K.departs _ _ s h)))
    · exact h0
  case frameStart =>
    refine .next ?_
    split
    · exact h0
    · split
      · exact K.start _ (K.lines _ s h)
      · exact h0
  case arbitrationLoss =>
    refine .next ?_
    split
    · exact h0
    · split
      · exact K.pendingClaimStop _ _ (K.start _ (K.line _ _ s.unknownReleases s h))
      · exact h0
  case transmitFault =>
    refine .next ?_
    split
    · exact h0
    · split
      · exact K.departed _ _ _ (K.departs _ _ s h)
      · exact h0
  case receiveCheckFailure bytes check spacers =>
    refine .next ?_
    split
    · exact K.start _ (K.line _ _ s.unknownReleases s h)
    · exact h0
  case reportDeparture how =>
    refine .next ?_
    split
    · exact K.start _ (K.departs _ _ s h)
    · exact h0
  case alertDeparture how =>
    refine .next ?_
    split
    · exact K.start _ (K.departs _ _ s h)
    · exact h0
  case rejoinDeparture how =>
    refine .next ?_
    split
    · exact h0
    · split
      · exact K.react _ (K.start _ (K.rejoinLeft how _ _ (K.departs _ _ s h)))
      · exact h0
  case stuckEntry =>
    refine .next ?_
    split
    · exact h0
    · exact K.enterStuck s h
  case lineReturn =>
    refine .next ?_
    split
    · exact K.start _ (K.lines _ s h)
    · exact h0
  case returnListenInEnd =>
    refine .next ?_
    split
    · refine K.react _ (K.start _ ?_)
      simp only [placeRejoin]
      split
      · exact K.places _ _ (K.lines _ s h)
      · exact K.lines _ s h
    · exact h0
  case lineIdle =>
    refine .next ?_
    split
    · exact K.start _ (K.lines _ s h)
    · exact h0
  case strayBit =>
    refine .next ?_
    split
    · split
      · exact K.enterStuck s h
      · exact K.start _ (K.lines _ s h)
    · exact h0

/-- A property that does not read the line is kept as `ExecClosed` says. -/
theorem execClosed : ExecClosed I J where
  toOpsClosed := K.toOpsClosed
  ended s h := K.lines _ s h
  noted s h := K.lines _ s h
  counted c n s h := K.line s.line c n s h
  rejoins c s h := by
    simp only [placeRejoin]
    split
    · exact K.places _ s h
    · exact h
  layer b payload serve s hs h := by
    have rep : ∀ k a u, J u → J (reply k a u) := fun k a u hu => K.lineAfter _ _ u hu
    simp only [requestLayer]
    split
    · exact K.start _ (K.raisedFirst _ _ (K.line s.line _ s.unknownReleases s h))
    · split
      · exact rep _ _ s (K.start s h)
      · next hf =>
        have := (hs I J K.toOpsClosed s hf h).2
        simp only [serveRequest]
        split
        · exact rep _ _ _ this
        · exact this
  line := K.ofLine

end LineFree

end Sys2Proof.Machine
end

section
/-! PROOFS of O5, O6, O8 and O9: the queue, the claim view, the hold reasons, the channels' targets and the setup store. -/

namespace Sys2Proof.Machine

open Sys2Proof

/-! ### One step -/

/-- A property that every command, the clock and the queue of commands keep is kept by every step. -/
theorem step_kept {P : State → Prop} (hc : ∀ c s, P s → Answers P (exec c s)) (hq : ∀ s l, P s → P { s with pending := l })
    (ha : ∀ s, P s → P (advance s)) {s t : State} (h : P s) (ht : step s = .next t) : P t := by
  simp only [step] at ht
  split at ht
  · exact hc _ _ (hq s _ h) t ht
  · simp only [idleStep] at ht
    split at ht
    · exact hc _ _ h t ht
    · cases ht; exact ha s h

/-- An invariant that the moves, a power-on reset, the launch of a shot and the clock keep is kept by every step. -/
theorem ExecClosed.step {P : State → Prop} (K : ExecClosed P P)
    (hp : ∀ straps s, P (resetBlocks (Station.powerOn straps) Setup.default s))
    (hl : ∀ ch m e s, P s → P (launchShot ch m e s)) (hq : ∀ s l, P s → P { s with pending := l })
    (ha : ∀ s, P s → P (advance s)) {s t : State} (h : P s) (ht : Machine.step s = .next t) : P t := by
  refine step_kept (fun c s h => ?_) hq ha h ht
  by_cases hc : ∃ straps, c = .powerOnReset straps
  · obtain ⟨straps, rfl⟩ := hc
    exact .next (hp straps s)
  · exact K.exec c s (fun straps e => hc ⟨straps, e⟩)
      (fun ch _ => K.launchTrigger ch s (fun m e _ _ _ _ => hl ch m e _ (K.returnResult ch s h)) h) h

@[simp] theorem advance_port (s : State) (p : PortId) :
    (advance s).port p = tickPortAt (tickStation s.station) p (s.port p) :=
  State.mapPorts_port s _ p

@[simp] theorem advance_chan (s : State) (ch : ChannelId) : (advance s).chan ch = tickChannel (s.chan ch) := by
  rcases channel_cases ch with rfl | rfl <;> rfl

theorem tick_running (k : Timer) : k.tick.running = k.running := by
  simp only [Timer.tick]
  split <;> rfl

theorem tickChannel_meas (c : Channel) : (tickChannel c).meas = c.meas ∧ (tickChannel c).phase = c.phase ∧
    (tickChannel c).launched = c.launched ∧ (tickChannel c).claim = c.claim.map tickClaim := by
  simp only [tickChannel]
  split <;> exact ⟨rfl, rfl, rfl, rfl⟩

/-! ### Properties of what the shared operations leave alone -/

/-- A property of the station, the setup store, the claim view and the counters is closed. -/
theorem Closed.ofRest {J : State → Prop} (hj : ∀ s t, KeepsRest s t → J s → J t) : Closed J where
  quiet s q a sw b n sq d h := hj _ _ ((keepsRest_closed s).quiet s q a sw b n sq d (.refl s)) h
  raised e s h := hj _ _ (raise_keeps e s) h
  minor p f s _ h := hj _ _ (modPort_keeps p f s) h
  unheld p f s _ _ h := hj _ _ (unhold_keeps p f s) h
  held p s _ _ h := hj _ _ (hold_keeps p _ s) h
  dropHeld p s _ _ h := hj _ _ ((dropLink_keeps p _ s).trans (hold_keeps p _ _)) h
  shadows s h := hj _ _ (mapPorts_keeps _ s) h
  channel ch f s _ h := hj _ _ (modChan_keeps ch f s) h
  begun ch _ _ s _ h := hj _ _ (modChan_keeps ch _ s) h
  placed f s _ _ h := hj _ _ (placeFrame_keeps f s) h
  taken ch s h := hj _ _ ((keepsRest_closed s).taken ch s (.refl s)) h

/-! ### The queue -/

theorem queueOk_nil : QueueOk [] := ⟨by decide, .nil, .nil⟩

theorem queueOk_moves : SharedMoves (fun s => QueueOk s.queue) where
  raised e s h := raise_queueKept e s h
  quiet _ _ _ h := h
  merged p r e s he h := mergeInto_queueKept p r e s (waitingFor_some he).1 (waitingFor_some he).2.1 h
  added p r s hn hl h := addEntry_queueKept p r s hl hn h
  requested p r s t ht h := autoRequest_queueKept p r s t ht h
  swept s h := sweepAdvance_queueKept s h
  sweepEnded s h := endSweep_queueKept s h
  sweepRetired s h := retireSweep_queueKept s h
  outcome p o s h := finalOutcome_queueKept p o s h
  waitingDropped p s h := dropWaiting_queueKept p s h
  react s h := react_queueKept s h
  stopped ch o s h := stopChannel_queueKept ch o s h
  stoppedNow ch o s _ h := stopNow_queueKept ch o s h
  finished ch o s _ h := finishBurst_queueKept ch o s h
  chan _ _ _ _ h := h
  burst _ _ _ _ h := h
  waitsYield _ _ _ _ h := h

theorem queueOk_own : OwnMoves (fun s => QueueOk s.queue) (fun s => QueueOk s.queue) where
  start _ h := h
  port _ _ _ _ _ h := h
  fronts _ _ _ h := h
  drawn _ _ h := h
  raisedFirst e s h := raise_queueKept e s h
  reported _ h := h
  controller _ _ _ _ _ h := h
  leaves _ _ _ _ _ h := h
  stored _ _ _ _ h := h
  phase _ _ _ _ _ _ h := h
  run _ _ h := h
  reset _ _ _ _ _ := queueOk_nil
  portAfter _ _ _ _ _ h := h
  view _ _ _ h := h

theorem queueOk_kept : LineFree (fun s => QueueOk s.queue) (fun s => QueueOk s.queue) where
  toOwnMoves := queueOk_own
  toSharedMoves := queueOk_moves
  line _ _ _ _ h := h
  lineAfter _ _ _ h := h
  channel _ _ _ _ h := h
  stops ch o s h := stopNow_queueKept ch o s h

/-! ### The claim view -/

theorem viewOk_nil : ViewOk [] := ⟨by decide, .nil⟩

theorem viewOk_closed : Closed (fun s => ViewOk s.view) := .ofRest fun _ _ k h => by rw [k.view]; exact h

theorem viewOk_own : OwnMoves (fun s => ViewOk s.view) (fun s => ViewOk s.view) where
  start _ h := h
  port _ _ _ _ _ h := h
  fronts _ _ _ h := h
  drawn _ _ h := h
  raisedFirst := viewOk_closed.raised
  reported _ h := h
  controller _ _ _ _ _ h := h
  leaves _ _ _ _ _ h := h
  stored _ _ _ _ h := h
  phase _ _ _ _ _ _ h := h
  run _ _ h := h
  reset _ _ _ _ _ := viewOk_nil
  portAfter _ _ _ _ _ h := h
  view _ _ hv h := hv h

theorem viewOk_kept : LineFree (fun s => ViewOk s.view) (fun s => ViewOk s.view) where
  toOwnMoves := viewOk_own
  toSharedMoves := .ofClosed viewOk_closed
  line _ _ _ _ h := h
  lineAfter _ _ _ h := h
  channel := viewOk_closed.channel
  stops := viewOk_closed.stopNow

/-- Settles O5, by the moves of the commands: queue and view are sound after each. -/
theorem everyStepKeepsQueueAndClaimViewSound : Obligations.EveryStepKeepsQueueAndClaimViewSound := by
  intro s t ht
  exact ⟨fun h => queueOk_kept.execClosed.step (fun _ _ => queueOk_nil) (fun _ _ _ _ h => h) (fun _ _ h => h) (fun _ h => h) h ht,
    fun h => viewOk_kept.execClosed.step (fun _ _ => viewOk_nil) (fun _ _ _ _ h => h) (fun _ _ h => h) (fun _ h => h) h ht⟩

/-! ### Hold reasons -/

/-- A port with no hold reason that has just been reset is sound in any phase. -/
theorem PortHoldOk.fresh (ph : StationPhase) (f : FrontEnd) : PortHoldOk ph (Port.fresh f) :=
  .of_free (by simp [Port.fresh, Training.fresh]) rfl rfl (fun _ => rfl)

theorem portAtRun_holdOk {ph : StationPhase} {s : State} {p : PortId} {a : Port} (h : PortHoldOk ph a) (hp : ph ≠ .run) :
    PortHoldOk .run (portAtRun s p a) := by
  have ho := h.2.2 hp
  obtain ⟨-, n2⟩ := h.notHeld (by rw [ho]; simp)
  simp only [portAtRun]
  split
  · exact .of_free (by simp [enterDisabled, settleInto]) rfl n2 (by simp)
  · obtain ⟨r1, r2, r3⟩ := portReEntry_facts s.setup.wakeSettle a
    exact .of_free r1 r2 (by rw [r3]; exact n2) (by simp)

theorem holdsOk_reset (st : Station) (su : Setup) (s : State) : HoldsOk (resetBlocks st su s) := fun p => by
  have hp : (resetBlocks st su s).port p = Port.fresh (s.port p).front :=
    State.mapPorts_port s (fun _ pt => Port.fresh pt.front) p
  rw [hp]; exact .fresh _ _

theorem holdsOk_own : OwnMoves HoldsOk HoldsOk where
  start _ h := h
  port p f _ hf _ h := h.modPort p f hf
  fronts f s hf h p := by
    rw [State.mapPorts_port]
    exact (h p).congr (by rw [(hf _ _).1]) (by rw [(hf _ _).1]) (by rw [(hf _ _).2])
  drawn _ _ h := h
  raisedFirst := holdsOk_closed.raised
  reported _ h := h
  controller _ _ hp _ _ h := h.congr (fun _ => rfl) hp
  leaves p f _ hf _ h := h.modPort p f hf
  stored _ _ _ _ h := h
  phase st s hs ht _ _ h p :=
    have ho := (h p).2.2 hs
    ⟨(h p).1, (h p).2.1, fun _ => ho⟩
  run s hs h p := by
    have hr := portAtRun_holdOk (s := s) (p := p) (h p) hs
    rw [← State.mapPorts_port s (portAtRun s) p] at hr
    exact hr
  reset st s _ _ _ := holdsOk_reset st s.setup s
  portAfter p f _ hf _ h := h.modPort p f hf
  view _ _ _ h := h

theorem holdsOk_kept : LineFree HoldsOk HoldsOk where
  toOwnMoves := holdsOk_own
  toSharedMoves := .ofClosed holdsOk_closed
  line _ _ _ _ h := h
  lineAfter _ _ _ h := h
  channel := holdsOk_closed.channel
  stops := holdsOk_closed.stopNow

theorem holdsOk_launch (ch : ChannelId) (m : Measurement) (e : Entry) (s : State) (h : HoldsOk s) : HoldsOk (launchShot ch m e s) :=
  h.modPort m.port (fun pt =>
    { pt with front.launched := [.pulse (drivenPair e (s.chan ch).launched) (pulseWidth e.reach)] })
    (fun g => g.congr rfl rfl rfl)

/-- Settles O6, by the moves of the commands; a µs stops no drop settle and changes no state. -/
theorem everyStepKeepsHoldReasonsConsistent : Obligations.EveryStepKeepsHoldReasonsConsistent := by
  intro s t h ht
  refine holdsOk_kept.execClosed.step (fun _ s => holdsOk_reset _ _ s) holdsOk_launch (fun _ _ h => h) (fun s h p => ?_) h ht
  rw [advance_port]
  exact (h p).congr rfl rfl (tick_running _)

/-! ### The channels' targets -/

/-- A reset leaves no channel with a measurement. -/
theorem resetBlocks_meas (st : Station) (su : Setup) (s : State) (ch : ChannelId) :
    ((resetBlocks st su s).chan ch).meas = none := by
  rcases channel_cases ch with rfl | rfl <;> rfl

theorem targetsApart_reset (st : Station) (su : Setup) (s : State) : TargetsApart (resetBlocks st su s) := by
  intro m n h0
  rw [resetBlocks_meas] at h0; cases h0

theorem targetsApart_own : OwnMoves TargetsApart TargetsApart where
  start _ h := h
  port _ _ _ _ _ h := h
  fronts _ _ _ h := h
  drawn _ _ h := h
  raisedFirst := targetsApart_closed.raised
  reported _ h := h
  controller _ _ _ hg _ h := h.mono hg (fun _ => Or.inl rfl)
  leaves _ _ _ _ _ h := h
  stored _ _ _ _ h := h
  phase _ _ _ _ hg _ h := h.mono hg (fun _ => Or.inl rfl)
  run _ _ h := h.mono rfl (fun _ => Or.inl rfl)
  reset st s _ _ _ := targetsApart_reset st s.setup s
  portAfter _ _ _ _ _ h := h
  view _ _ _ h := h

theorem targetsApart_kept : LineFree TargetsApart TargetsApart where
  toOwnMoves := targetsApart_own
  toSharedMoves := .ofClosed targetsApart_closed
  line _ _ _ _ h := h
  lineAfter _ _ _ h := h
  channel := targetsApart_closed.channel
  stops := targetsApart_closed.stopNow

theorem targetsApart_launch (ch : ChannelId) (m : Measurement) (e : Entry) (s : State) (h : TargetsApart s) :
    TargetsApart (launchShot ch m e s) :=
  TargetsApart.modChan (s := s) h ch (fun c => { c with stage := .capture, launched := c.launched + 1, shot := ⟨true, 4, 16⟩ })
    (Or.inl rfl)

/-- Settles O8, by the moves of the commands: a pickup takes no target that conflicts with the other channel's (R75). -/
theorem everyStepKeepsTheChannelsTargetsApart : Obligations.EveryStepKeepsTheChannelsTargetsApart := by
  intro s t h ht
  exact targetsApart_kept.execClosed.step (fun _ s => targetsApart_reset _ _ s) targetsApart_launch (fun _ _ h => h)
    (fun s h => h.mono rfl (fun ch => Or.inl (by rw [advance_chan]; exact (tickChannel_meas _).1))) h ht

/-! ### The setup store -/

theorem setupOk_closed : Closed (fun s => SetupOk s.setup) := .ofRest fun _ _ k h => by rw [k.setup]; exact h

theorem setupOk_own : OwnMoves (fun s => SetupOk s.setup) (fun s => SetupOk s.setup) where
  start _ h := h
  port _ _ _ _ _ h := h
  fronts _ _ _ h := h
  drawn _ _ h := h
  raisedFirst := setupOk_closed.raised
  reported _ h := h
  controller _ _ _ _ _ h := h
  leaves _ _ _ _ _ h := h
  stored _ _ _ hs h := hs h
  phase _ _ _ _ _ _ h := h
  run _ _ h := h
  reset _ _ _ _ h := h
  portAfter _ _ _ _ _ h := h
  view _ _ _ h := h

theorem setupOk_kept : LineFree (fun s => SetupOk s.setup) (fun s => SetupOk s.setup) where
  toOwnMoves := setupOk_own
  toSharedMoves := .ofClosed setupOk_closed
  line _ _ _ _ h := h
  lineAfter _ _ _ h := h
  channel := setupOk_closed.channel
  stops := setupOk_closed.stopNow

/-- The defaults of Table 11-3 lie in their ranges. -/
theorem setupOk_default : SetupOk Setup.default := by
  constructor
  case tables => exact fun p => (tableOk_iff _).2 (by revert p; decide)
  all_goals decide

/-- Setup store and phase are those of a, and a lock of a stands. -/
def SetupUntouched (a s : State) : Prop :=
  s.setup = a.setup ∧ s.station.phase = a.station.phase ∧ (a.station.locked = true → s.station.locked = true)

/-- The setup store is that of a, or a stood in SETUP, and a lock of a stands. -/
def SetupAfter (a s : State) : Prop :=
  (a.station.phase = .setup ∨ s.setup = a.setup) ∧ (a.station.locked = true → s.station.locked = true)

theorem setupAfter_closed (a : State) : Closed (SetupAfter a) := .ofRest fun s t k h => by
  simp only [SetupAfter, k.setup, k.station]; exact h

theorem setupAfter_own (a : State) : OwnMoves (SetupUntouched a) (SetupAfter a) where
  start _ h := ⟨Or.inr h.1, h.2.2⟩
  port _ _ _ _ _ h := h
  fronts _ _ _ h := h
  drawn _ _ h := h
  raisedFirst e s h := by simp only [SetupUntouched, raise_setup, raise_station]; exact h
  reported _ h := h
  controller _ _ hp _ hl h := ⟨h.1, hp.trans h.2.1, fun g => hl (h.2.2 g)⟩
  leaves _ _ _ _ _ h := ⟨Or.inr h.1, h.2.2⟩
  stored _ _ hp _ h := ⟨Or.inl (h.2.1 ▸ hp), h.2.2⟩
  phase _ _ _ _ _ hl h := ⟨Or.inr h.1, fun g => hl ▸ h.2.2 g⟩
  run _ _ h := ⟨Or.inr h.1, h.2.2⟩
  reset _ _ _ hl h := ⟨Or.inr h.1, fun g => hl ▸ h.2.2 g⟩
  portAfter _ _ _ _ _ h := h
  view _ _ _ h := h

theorem setupAfter_kept (a : State) : LineFree (SetupUntouched a) (SetupAfter a) where
  toOwnMoves := setupAfter_own a
  toSharedMoves := .ofClosed (setupAfter_closed a)
  line _ _ _ _ h := h
  lineAfter _ _ _ h := h
  channel := (setupAfter_closed a).channel
  stops := (setupAfter_closed a).stopNow

/-- Setup store and lock after any command but a power-on reset. -/
theorem exec_setupAfter (c : Instr) (s : State) (hp : ∀ straps, c ≠ .powerOnReset straps) :
    Answers (SetupAfter s) (exec c s) := by
  have h : SetupUntouched s s := ⟨rfl, rfl, id⟩
  refine (setupAfter_kept s).execClosed.exec c s hp (fun ch _ => (setupAfter_kept s).launchTrigger ch s ?_ h) h
  intro m e _ _ _ _
  have k := returnResult_keeps ch s
  have h1 : SetupAfter s (Machine.returnResult ch s) := ⟨Or.inr k.setup, fun g => by rw [k.station]; exact g⟩
  exact h1

/-- Settles O9, by the moves of the commands. -/
theorem setupStaysInRangeAndChangesOnlyWhereItMay : Obligations.SetupStaysInRangeAndChangesOnlyWhereItMay := by
  refine ⟨fun s t h ht => ?_, fun c s t ht hne => ?_, fun c s t ht hl hu => ?_⟩
  · exact setupOk_kept.execClosed.step (fun _ _ => setupOk_default) (fun _ _ _ _ h => h) (fun _ _ h => h) (fun _ h => h) h ht
  · by_cases hp : ∃ straps, c = .powerOnReset straps
    · exact Or.inr hp
    · have := (exec_setupAfter c s (fun straps e => hp ⟨straps, e⟩) t ht).1
      exact Or.inl (this.resolve_right hne)
  · by_contra hp
    have := (exec_setupAfter c s (fun straps e => hp ⟨straps, e⟩) t ht).2 hl
    rw [hu] at this; cases this

end Sys2Proof.Machine
end

section
/-! PROOFS of O10 and O11: when a shot is launched, and what a port that leaves UP has on record. -/

namespace Sys2Proof.Machine

open Sys2Proof

/-! ### Shots launched (R93) -/

theorem launched_own (ch : ChannelId) (n : Nat) :
    OwnMoves (fun s => (s.chan ch).launched ≤ n) (fun s => (s.chan ch).launched ≤ n) where
  start _ h := h
  port _ _ _ _ _ h := h
  fronts _ _ _ h := h
  drawn _ _ h := h
  raisedFirst := (launched_closed ch n).raised
  reported _ h := h
  controller _ _ _ _ _ h := h
  leaves _ _ _ _ _ h := h
  stored _ _ _ _ h := h
  phase _ _ _ _ _ _ h := h
  run _ _ h := h
  reset st s _ _ _ := by
    rcases channel_cases ch with rfl | rfl <;> exact Nat.zero_le n
  portAfter _ _ _ _ _ h := h
  view _ _ _ h := h

theorem launched_kept (ch : ChannelId) (n : Nat) :
    LineFree (fun s => (s.chan ch).launched ≤ n) (fun s => (s.chan ch).launched ≤ n) where
  toOwnMoves := launched_own ch n
  toSharedMoves := .ofClosed (launched_closed ch n)
  line _ _ _ _ h := h
  lineAfter _ _ _ h := h
  channel := (launched_closed ch n).channel
  stops := (launched_closed ch n).stopNow

/-- A launch on one channel leaves the other's shots alone. -/
theorem launchShot_other {d ch : ChannelId} (hd : d ≠ ch) (m : Measurement) (e : Entry) (s : State) :
    (launchShot d m e s).chan ch = s.chan ch :=
  State.modChan_chan_ne s d ch (fun c => { c with stage := .capture, launched := c.launched + 1, shot := ⟨true, 4, 16⟩ }) hd

/-- No command but a launch trigger of the channel raises its shots launched. -/
theorem exec_launched (c : Instr) (s : State) (ch : ChannelId) (hc : c ≠ .launchTrigger ch) :
    Answers (fun t => (t.chan ch).launched ≤ (s.chan ch).launched) (exec c s) := by
  by_cases hp : ∃ straps, c = .powerOnReset straps
  · obtain ⟨straps, rfl⟩ := hp
    refine .next ?_
    rcases channel_cases ch with rfl | rfl <;> exact Nat.zero_le _
  · refine (launched_kept ch _).execClosed.exec c s (fun straps e => hp ⟨straps, e⟩) (fun d hd => ?_) le_rfl
    refine (launched_kept ch _).launchTrigger d s (fun m e _ _ _ _ => ?_) le_rfl
    have hne : d ≠ ch := by rintro rfl; exact hc hd
    rw [launchShot_other hne, (returnResult_chan d ch s).2.2.2.2.1]

theorem returnResult_port (ch : ChannelId) (s : State) (p : PortId) : (returnResult ch s).port p = s.port p := by
  simp only [returnResult]
  split <;> rfl

/-- What R93 asks before a launch: no stop pends, the port is HELD, and no claim of the view conflicts. -/
theorem launchAllowed_iff (ch : ChannelId) (m : Measurement) (s : State) : launchAllowed ch m s = true ↔
    (s.chan ch).stop = none ∧ (s.port m.port).train.state = .held ∧
      ∀ v ∈ s.view, conflicts s.station.geometry m.target v.target = false := by
  simp [launchAllowed, Port.isIn, viewConflicts, List.filter_eq_nil_iff, and_assoc]

/-- Settles O10: no other command raises shots launched, and the trigger launches where R93 allows it alone. -/
theorem noShotWithoutAHeldPortAndAClearView : Obligations.NoShotWithoutAHeldPortAndAClearView := by
  intro c s t ch ht hlt
  by_cases hc : c = .launchTrigger ch
  · subst hc
    by_cases ha : ∃ m, (s.chan ch).meas = some m ∧ (s.chan ch).beforeLaunch = true ∧
        launchAllowed ch m (returnResult ch s) = true
    · obtain ⟨m, hm, hb, hl⟩ := ha
      obtain ⟨h1, h2, h3⟩ := (launchAllowed_iff _ _ _).1 hl
      have k := returnResult_keeps ch s
      rw [k.view, k.station] at h3
      rw [returnResult_port] at h2
      rw [(returnResult_chan ch ch s).2.2.2.1] at h1
      exact ⟨rfl, bursting_of_beforeLaunch hb, h1, m, hm, h2, h3⟩
    · have := (launched_kept ch _).launchTrigger ch s
        (fun m e hm _ hb hl => absurd ⟨m, hm, hb, hl⟩ ha) le_rfl t ht
      omega
  · have := exec_launched c s ch hc t ht
    omega

/-! ### Leaving UP (R17) -/

/-- The station is in RUN with port p UP. -/
def UpInRun (p : PortId) (s : State) : Prop := s.station.phase = .run ∧ (s.port p).train.state = .up

/-- The station has left RUN, or port p is UP or its drop is on record. -/
def LeftRunOrDropped (p : PortId) (s : State) : Prop := s.station.phase ≠ .run ∨ UpOrDropped p s

/-- A property that holds in one of two ways is closed when both are. -/
theorem Closed.or {A B : State → Prop} (a : Closed A) (b : Closed B) : Closed (fun s => A s ∨ B s) where
  quiet s q x sw bu n sq d := Or.imp (a.quiet s q x sw bu n sq d) (b.quiet s q x sw bu n sq d)
  raised e s := Or.imp (a.raised e s) (b.raised e s)
  minor p f s hf := Or.imp (a.minor p f s hf) (b.minor p f s hf)
  unheld p f s h0 h1 := Or.imp (a.unheld p f s h0 h1) (b.unheld p f s h0 h1)
  held p s hr hs := Or.imp (a.held p s hr hs) (b.held p s hr hs)
  dropHeld p s hr hs := Or.imp (a.dropHeld p s hr hs) (b.dropHeld p s hr hs)
  shadows s := Or.imp (a.shadows s) (b.shadows s)
  channel ch f s hf := Or.imp (a.channel ch f s hf) (b.channel ch f s hf)
  begun ch ph m s ha := Or.imp (a.begun ch ph m s ha) (b.begun ch ph m s ha)
  placed f s hk hp := Or.imp (a.placed f s hk hp) (b.placed f s hk hp)
  taken ch s := Or.imp (a.taken ch s) (b.taken ch s)

theorem leftRunOrDropped_closed (p : PortId) : Closed (LeftRunOrDropped p) :=
  .or (.ofRest fun _ _ k h => by rw [k.station]; exact h) (upOrDropped_closed p)

/-- A change of any port keeps the record of p's drop where it keeps it for p itself. -/
theorem UpOrDropped.modPort {p q : PortId} {f : Port → Port} {s : State}
    (hf : q = p → UpOrDropped p s → UpOrDropped p (s.modPort p f)) (h : UpOrDropped p s) : UpOrDropped p (s.modPort q f) := by
  by_cases hq : q = p
  · subst hq; exact hf rfl h
  · exact h.other f hq

theorem leftRunOrDropped_own (p : PortId) : OwnMoves (UpInRun p) (LeftRunOrDropped p) where
  start _ h := Or.inr (Or.inl h.2)
  port q f s _ hu h := by
    refine ⟨h.1, ?_⟩
    by_cases hq : q = p
    · subst hq; rw [State.modPort_port_self]; exact hu h.2
    · rw [State.modPort_port_ne _ _ _ _ hq]; exact h.2
  fronts f s hf h := ⟨h.1, by rw [State.mapPorts_port, (hf _ _).1]; exact h.2⟩
  drawn _ _ h := h
  raisedFirst e s h := ⟨by rw [raise_station]; exact h.1, by rw [raise_port]; exact h.2⟩
  reported _ h := h
  controller _ _ hp _ _ h := ⟨hp.trans h.1, h.2⟩
  leaves q f s _ hu h := by
    refine Or.inr (UpOrDropped.modPort (fun hq _ => ?_) (Or.inl h.2))
    subst hq; exact hu h.2
  stored _ _ hs _ h := by rw [h.1] at hs; cases hs
  phase _ _ hs _ _ _ h := absurd h.1 hs
  run _ hs h := absurd h.1 hs
  reset st s hs _ _ := Or.inl (by
    rw [show (resetBlocks st s.setup s).station = st from rfl, hs]; simp)
  portAfter q f s _ hf h := h.imp id (UpOrDropped.modPort (fun hq g => by subst hq; exact hf g))
  view _ _ _ h := h

theorem leftRunOrDropped_kept (p : PortId) : LineFree (UpInRun p) (LeftRunOrDropped p) where
  toOwnMoves := leftRunOrDropped_own p
  toSharedMoves := .ofClosed (leftRunOrDropped_closed p)
  line _ _ _ _ h := h
  lineAfter _ _ _ h := h
  channel := (leftRunOrDropped_closed p).channel
  stops := (leftRunOrDropped_closed p).stopNow

theorem leftRunOrDropped_launch (p : PortId) (ch : ChannelId) (m : Measurement) (e : Entry) (s : State)
    (h : LeftRunOrDropped p s) : LeftRunOrDropped p (launchShot ch m e s) :=
  (leftRunOrDropped_own p).portAfter m.port (fun pt =>
      { pt with front.launched := [.pulse (drivenPair e (s.chan ch).launched) (pulseWidth e.reach)] }) s
    (fun g => g.congr rfl rfl rfl) (UpOrDropped.modPort_of_kept rfl rfl rfl rfl) h

/-- Settles O11, by the moves of the commands: a port leaves UP in RUN by a drop alone. -/
theorem leavingUpIsADropWithACauseAndLinkDown : Obligations.LeavingUpIsADropWithACauseAndLinkDown := by
  intro c s t p ht hr hu hne htr
  have h : UpInRun p s := ⟨hr, hu⟩
  have hj : LeftRunOrDropped p t := by
    by_cases hp : ∃ straps, c = .powerOnReset straps
    · obtain ⟨straps, rfl⟩ := hp
      cases ht; cases htr
    · have K := leftRunOrDropped_kept p
      exact K.execClosed.exec c s (fun straps e => hp ⟨straps, e⟩) (fun ch _ => K.launchTrigger ch s
        (fun m e _ _ _ _ => leftRunOrDropped_launch p ch m e _ (K.returnResult ch s (K.start s h))) h) h t ht
  exact (hj.resolve_left (fun g => g htr)).resolve_left hne

end Sys2Proof.Machine
end

section
/-! SUPPORT for O7. The transmit list under the shared operations: what may join it, what may leave it, and which changes of a channel
its CLAIM and RELEASE frames allow. -/

namespace Sys2Proof.Machine

open Sys2Proof

/-! ### Counting frames -/

theorem insertFrame_perm (f : Frame) (l : List Frame) : (insertFrame f l).Perm (f :: l) := by
  induction l with
  | nil => exact .refl _
  | cons g gs ih =>
    simp only [insertFrame]
    split
    · exact (ih.cons g).trans (.swap f g gs)
    · exact .refl _

theorem countFor_insertFrame (k : FrameKind) (ch : ChannelId) (f : Frame) (l : List Frame) :
    countFor k ch (insertFrame f l) = countFor k ch l + if f.isFor k ch = true then 1 else 0 := by
  rw [countFor, ((insertFrame_perm f l).filter _).length_eq, List.filter_cons]
  split <;> simp [countFor]

theorem countFor_eq_zero {k : FrameKind} {ch : ChannelId} {l : List Frame} :
    countFor k ch l = 0 ↔ ∀ f ∈ l, f.isFor k ch = false := by
  simp [countFor, List.filter_eq_nil_iff]

theorem countKind_eq_zero {k : FrameKind} {l : List Frame} : countKind k l = 0 ↔ ∀ f ∈ l, f.kind ≠ k := by
  simp [countKind, List.filter_eq_nil_iff]

theorem isFor_iff {f : Frame} {k : FrameKind} {ch : ChannelId} : f.isFor k ch = true ↔ f.kind = k ∧ f.channel = some ch := by
  simp [Frame.isFor]

/-- The frames that satisfy p are one fewer once a frame among them has been taken out. -/
theorem filter_takeOut_length {test p : Frame → Bool} {l : List Frame} (hp : ∀ f, test f = true → p f = true)
    (h : ∃ f ∈ l, test f = true) : ((takeOut test l).filter p).length + 1 = (l.filter p).length := by
  induction l with
  | nil => obtain ⟨f, hf, -⟩ := h; cases hf
  | cons g gs ih =>
    simp only [takeOut]
    split
    · next hg => simp [hp g hg]
    · next hg =>
      obtain ⟨f, hf, ht⟩ := h
      rcases List.mem_cons.1 hf with rfl | hf
      · exact absurd ht hg
      · have := ih ⟨f, hf, ht⟩
        cases hpg : p g
        · simpa [List.filter_cons, hpg] using this
        · simpa [List.filter_cons, hpg] using this

/-- A frame that fails the test stays. -/
theorem mem_takeOut_of_not {test : Frame → Bool} {f : Frame} {l : List Frame} (hf : f ∈ l) (ht : test f = false) :
    f ∈ takeOut test l := by
  induction l with
  | nil => cases hf
  | cons g gs ih =>
    simp only [takeOut]
    rcases List.mem_cons.1 hf with rfl | hf
    · rw [ht]; exact List.mem_cons_self ..
    · split
      · exact hf
      · exact List.mem_cons_of_mem _ (ih hf)

theorem countKind_cons (k : FrameKind) (f : Frame) (l : List Frame) :
    countKind k (f :: l) = countKind k l + if f.kind = k then 1 else 0 := by
  by_cases h : f.kind = k <;> simp [countKind, h]

theorem countFor_cons (k : FrameKind) (ch : ChannelId) (f : Frame) (l : List Frame) :
    countFor k ch (f :: l) = countFor k ch l + if f.isFor k ch = true then 1 else 0 := by
  cases h : f.isFor k ch <;> simp [countFor, h]

theorem length_eq_kinds (l : List Frame) : l.length = countKind .rejoin l + countKind .release l + countKind .claim l +
    countKind .report l + countKind .alert l := by
  induction l with
  | nil => rfl
  | cons f fs ih =>
    simp only [countKind, List.filter_cons, List.length_cons] at ih ⊢
    cases f.kind <;> simp <;> omega

/-- Each frame of a kind is one of a channel. -/
theorem countKind_le_channels {k : FrameKind} {l : List Frame} (h : ∀ f ∈ l, f.kind = k → f.channel ≠ none) :
    countKind k l ≤ countFor k 0 l + countFor k 1 l := by
  induction l with
  | nil => simp [countKind]
  | cons f fs ih =>
    have h1 := ih (fun g hg => h g (List.mem_cons_of_mem _ hg))
    have hf : f.kind = k → f.isFor k 0 = true ∨ f.isFor k 1 = true := fun hk => by
      have := h f (List.mem_cons_self ..) hk
      cases hc : f.channel with
      | none => exact absurd hc this
      | some ch =>
        rcases channel_cases ch with rfl | rfl
        · exact Or.inl (isFor_iff.2 ⟨hk, hc⟩)
        · exact Or.inr (isFor_iff.2 ⟨hk, hc⟩)
    rw [countKind_cons, countFor_cons, countFor_cons]
    by_cases hk : f.kind = k
    · rcases hf hk with h0 | h0 <;> rw [if_pos hk, if_pos h0] <;> omega
    · rw [if_neg hk]; omega

/-! ### The list and the channels -/

/-- The channel waits for its CLAIM to be sent (R158). -/
def Queued (c : Channel) : Prop := c.phase = .claiming ∧ ∃ l, c.claim = some l ∧ l.state = .queued

/-- The list holds no frame of the channel. -/
def NoFrames (ch : ChannelId) (l : List Frame) : Prop := countFor .claim ch l = 0 ∧ countFor .release ch l = 0

/-- A change of a channel that its frames allow. -/
def Carries (c d : Channel) : Prop := (Queued c → Queued d) ∧ (c.phase = .releasing → d.phase = .releasing)

theorem Carries.refl (c : Channel) : Carries c c := ⟨id, id⟩

theorem Carries.of_eq {c d : Channel} (h1 : d.phase = c.phase) (h2 : d.claim = c.claim) : Carries c d := by
  simp only [Carries, Queued, h1, h2]; exact ⟨id, id⟩

/-- The bounds of R145, R147 and R158 from those of each kind alone. -/
theorem FramesOk.of {s : State} (h1 : s.line.list.Pairwise (fun f g => frameKindCode f.kind ≤ frameKindCode g.kind))
    (h2 : countKind .report s.line.list ≤ 2) (h3 : countKind .alert s.line.list ≤ 1)
    (h4 : ∀ f ∈ s.line.list, f.payload.length ≤ 15) (h5 : countKind .rejoin s.line.list ≤ 1)
    (h6 : ∀ f ∈ s.line.list, (f.kind = .claim ∨ f.kind = .release) → f.channel ≠ none)
    (h7 : ∀ ch, countFor .claim ch s.line.list ≤ 1 ∧ (countFor .claim ch s.line.list ≠ 0 → Queued (s.chan ch)))
    (h8 : ∀ ch, countFor .release ch s.line.list ≤ 1 ∧ (countFor .release ch s.line.list ≠ 0 → (s.chan ch).phase = .releasing))
    (h9 : ∀ o, s.line.onLine = some o → o.frame ∈ s.line.list ∧ s.line.condition ≠ .stuck ∧ s.line.listenIn.running = false) :
    FramesOk s := by
  have hr : countKind .release s.line.list ≤ 2 := by
    have := countKind_le_channels (fun f hf hk => h6 f hf (Or.inr hk)) (k := .release)
    have := (h8 0).1; have := (h8 1).1
    omega
  have hc : countKind .claim s.line.list ≤ 2 := by
    have := countKind_le_channels (fun f hf hk => h6 f hf (Or.inl hk)) (k := .claim)
    have := (h7 0).1; have := (h7 1).1
    omega
  refine ⟨⟨h1, h2, h3, h4, fun o ho => h4 _ (h9 o ho).1⟩, ?_, h5, hr, hc, h6, h7, h8, h9⟩
  rw [length_eq_kinds]; omega

/-- Frames leave the list, and the channels change as the frames that stay allow. -/
theorem FramesOk.shrink {s t : State} (h : FramesOk s) (hs : t.line.list.Sublist s.line.list)
    (hc : ∀ ch, NoFrames ch t.line.list ∨ Carries (s.chan ch) (t.chan ch))
    (ho : ∀ o, t.line.onLine = some o → o.frame ∈ t.line.list ∧ t.line.condition ≠ .stuck ∧ t.line.listenIn.running = false) :
    FramesOk t := by
  obtain ⟨l1, l2, l3, l4, -⟩ := h.list
  have hk : ∀ k, countKind k t.line.list ≤ countKind k s.line.list := fun k => (hs.filter _).length_le
  have hf : ∀ k ch, countFor k ch t.line.list ≤ countFor k ch s.line.list := fun k ch => (hs.filter _).length_le
  refine .of (l1.sublist hs) ((hk _).trans l2) ((hk _).trans l3) (fun f hm => l4 f (hs.subset hm)) ((hk _).trans h.rejoin)
    (fun f hm => h.channel f (hs.subset hm)) (fun ch => ?_) (fun ch => ?_) ho
  · refine ⟨(hf _ _).trans (h.claims ch).1, fun hne => ?_⟩
    rcases hc ch with hn | hn
    · exact absurd hn.1 hne
    · exact hn.1 ((h.claims ch).2 (fun e => hne (Nat.le_zero.1 (e ▸ hf .claim ch))))
  · refine ⟨(hf _ _).trans (h.releases ch).1, fun hne => ?_⟩
    rcases hc ch with hn | hn
    · exact absurd hn.2 hne
    · exact hn.2 ((h.releases ch).2 (fun e => hne (Nat.le_zero.1 (e ▸ hf .release ch))))

/-- A frame joins the list within the limit of its kind, and the channels change as their frames allow. -/
theorem FramesOk.insert {s t : State} {f : Frame} (h : FramesOk s)
    (hl : t.line = { s.line with list := insertFrame f s.line.list }) (hp : f.payload.length ≤ 15)
    (hj : f.kind = .rejoin → countKind .rejoin s.line.list = 0) (hr : f.kind = .report → countKind .report s.line.list ≤ 1)
    (ha : f.kind = .alert → countKind .alert s.line.list = 0)
    (hn : f.kind = .claim ∨ f.kind = .release → f.channel ≠ none)
    (hc : ∀ ch, (NoFrames ch s.line.list ∧ (f.isFor .claim ch = true → Queued (t.chan ch)) ∧
        (f.isFor .release ch = true → (t.chan ch).phase = .releasing)) ∨
      (f.isFor .claim ch = false ∧ f.isFor .release ch = false ∧ Carries (s.chan ch) (t.chan ch))) :
    FramesOk t := by
  obtain ⟨l1, l2, l3, l4, -⟩ := h.list
  have hlist : t.line.list = insertFrame f s.line.list := by rw [hl]
  have hk : ∀ k, countKind k t.line.list = countKind k s.line.list + if f.kind = k then 1 else 0 := fun k => by
    rw [hlist, countKind_insertFrame]
  have hf : ∀ k ch, countFor k ch t.line.list = countFor k ch s.line.list + if f.isFor k ch = true then 1 else 0 :=
    fun k ch => by rw [hlist, countFor_insertFrame]
  refine .of (by rw [hlist]; exact insertFrame_sorted l1) ?_ ?_ ?_ ?_ ?_ (fun ch => ?_) (fun ch => ?_) ?_
  · rw [hk]; split
    · next e => have := hr e; omega
    · exact l2
  · rw [hk]; split
    · next e => have := ha e; omega
    · exact l3
  · intro x hx
    rcases mem_insertFrame.1 (hlist ▸ hx) with rfl | hx
    · exact hp
    · exact l4 x hx
  · rw [hk]; split
    · next e => have := hj e; omega
    · exact h.rejoin
  · intro x hx
    rcases mem_insertFrame.1 (hlist ▸ hx) with rfl | hx
    · exact hn
    · exact h.channel x hx
  · rw [hf]
    rcases hc ch with ⟨⟨c1, -⟩, c2, -⟩ | ⟨c1, -, c2⟩
    · rw [c1]; split
      · next e => exact ⟨by omega, fun _ => c2 e⟩
      · exact ⟨by omega, fun e => absurd rfl e⟩
    · rw [c1]; exact ⟨(h.claims ch).1, fun e => c2.1 ((h.claims ch).2 e)⟩
  · rw [hf]
    rcases hc ch with ⟨⟨-, c1⟩, -, c2⟩ | ⟨-, c1, c2⟩
    · rw [c1]; split
      · next e => exact ⟨by omega, fun _ => c2 e⟩
      · exact ⟨by omega, fun e => absurd rfl e⟩
    · rw [c1]; exact ⟨(h.releases ch).1, fun e => c2.2 ((h.releases ch).2 e)⟩
  · intro o hoo
    have hoo' : s.line.onLine = some o := by rw [hl] at hoo; exact hoo
    obtain ⟨a, b, c⟩ := h.onLine o hoo'
    refine ⟨by rw [hlist]; exact mem_insertFrame.2 (Or.inr a), ?_, ?_⟩
    · rw [hl]; exact b
    · rw [hl]; exact c

/-- A channel that neither waits for its CLAIM nor is released has no frame in the list. -/
theorem FramesOk.noFrames {s : State} (h : FramesOk s) {ch : ChannelId} (h1 : ¬Queued (s.chan ch))
    (h2 : (s.chan ch).phase ≠ .releasing) : NoFrames ch s.line.list :=
  ⟨by_contra fun e => h1 ((h.claims ch).2 e), by_contra fun e => h2 ((h.releases ch).2 e)⟩

theorem not_queued_of_phase {c : Channel} (h : c.phase ≠ .claiming) : ¬Queued c := fun q => h q.1

/-! ### The list sound, with at most n REPORT frames -/

/-- The transmit list is sound and holds at most n REPORT frames. -/
def Framed (n : Nat) (s : State) : Prop := FramesOk s ∧ countKind .report s.line.list ≤ n

theorem framed_two {s : State} : Framed 2 s ↔ FramesOk s := ⟨And.left, fun h => ⟨h, h.list.2.1⟩⟩

namespace Framed

variable {n : Nat} {s t : State}

theorem shrink (h : Framed n s) (hs : t.line.list.Sublist s.line.list)
    (hc : ∀ ch, NoFrames ch t.line.list ∨ Carries (s.chan ch) (t.chan ch))
    (ho : ∀ o, t.line.onLine = some o → o.frame ∈ t.line.list ∧ t.line.condition ≠ .stuck ∧ t.line.listenIn.running = false) :
    Framed n t := ⟨h.1.shrink hs hc ho, ((hs.filter _).length_le).trans h.2⟩

/-- List and own frame stay, and each channel changes as its frames allow. -/
theorem congr (h : Framed n s) (hl : t.line = s.line) (hc : ∀ ch, NoFrames ch s.line.list ∨ Carries (s.chan ch) (t.chan ch)) :
    Framed n t :=
  h.shrink (by rw [hl]) (by rw [hl]; exact hc) (by rw [hl]; exact h.1.onLine)

/-- Line and channels stay. -/
theorem same (h : Framed n s) (hl : t.line = s.line) (hc : t.channels = s.channels) : Framed n t :=
  h.congr hl (fun ch => Or.inr (by simp only [State.chan, hc]; exact .refl _))

theorem only (h : Framed n s) (ht : OnlyQueueAndSweep s t) : Framed n t :=
  h.same (by rw [ht]) (by rw [ht])

/-- One channel changes as its frames allow. -/
theorem modChan (h : Framed n s) (ch : ChannelId) (f : Channel → Channel)
    (hf : NoFrames ch s.line.list ∨ Carries (s.chan ch) (f (s.chan ch))) : Framed n (s.modChan ch f) := by
  refine h.congr rfl (fun d => ?_)
  by_cases hd : ch = d
  · subst hd; rw [State.modChan_chan_self]; exact hf
  · rw [State.modChan_chan_ne _ _ _ _ hd]; exact Or.inr (.refl _)

/-- A frame of another kind than CLAIM, RELEASE and REPORT joins the list. -/
theorem place (h : Framed n s) (f : Frame) (hp : f.payload.length ≤ 15) (hk : f.kind = .rejoin ∨ f.kind = .alert)
    (h0 : countKind f.kind s.line.list = 0) : Framed n (placeFrame f s) := by
  have hk' : f.kind ≠ .report ∧ f.kind ≠ .claim ∧ f.kind ≠ .release := by
    rcases hk with e | e <;> rw [e] <;> simp
  refine ⟨h.1.insert rfl hp (fun e => e ▸ h0) (fun e => absurd e hk'.1) (fun e => e ▸ h0)
    (fun e => absurd e (by simp [hk'])) (fun ch => Or.inr ⟨?_, ?_, .refl _⟩), ?_⟩
  · simp [Frame.isFor, hk'.2.1]
  · simp [Frame.isFor, hk'.2.2]
  · simp only [placeFrame]; rw [countKind_insertFrame, if_neg hk'.1]; exact h.2

theorem raise (h : Framed n s) (e : Event) : Framed n (Machine.raise e s) := by
  simp only [Machine.raise]
  split
  · next hc =>
    exact Framed.place (s := { s with summary := s.summary.add e }) (h.same rfl rfl) alertFrame (by simp [alertFrame])
      (Or.inr rfl) hc.2
  · exact h.same rfl rfl

/-- A channel with no frame in the list places its CLAIM, its claim QUEUED. -/
theorem placeClaim (h : Framed n s) {ch : ChannelId} {p : List Byte} (hp : p.length ≤ 15) (hn : NoFrames ch s.line.list)
    (hl : t.line = s.line) (hq : Queued (t.chan ch)) (ho : ∀ d, d ≠ ch → t.chan d = s.chan d) :
    Framed n (placeFrame ⟨.claim, p, some ch, false⟩ t) := by
  refine ⟨h.1.insert (f := ⟨.claim, p, some ch, false⟩) (by rw [← hl]; rfl) hp (by simp) (by simp) (by simp) (by simp)
    (fun d => ?_), ?_⟩
  · by_cases hd : d = ch
    · subst hd; exact Or.inl ⟨hn, fun _ => hq, by simp [Frame.isFor]⟩
    · refine Or.inr ⟨?_, by simp [Frame.isFor], ?_⟩
      · simp [Frame.isFor, Ne.symm hd]
      · rw [show (placeFrame _ t).chan d = t.chan d from rfl, ho d hd]; exact .refl _
  · simp only [placeFrame, hl]; rw [countKind_insertFrame]; exact h.2

/-- A channel with no frame in the list places its RELEASE. -/
theorem placeRelease (h : Framed n s) {ch : ChannelId} {p : List Byte} (hp : p.length ≤ 15) (hn : NoFrames ch s.line.list)
    (hl : t.line = s.line) (hq : (t.chan ch).phase = .releasing) (ho : ∀ d, d ≠ ch → t.chan d = s.chan d) :
    Framed n (placeFrame ⟨.release, p, some ch, false⟩ t) := by
  refine ⟨h.1.insert (f := ⟨.release, p, some ch, false⟩) (by rw [← hl]; rfl) hp (by simp) (by simp) (by simp) (by simp)
    (fun d => ?_), ?_⟩
  · by_cases hd : d = ch
    · subst hd; exact Or.inl ⟨hn, by simp [Frame.isFor], fun _ => hq⟩
    · refine Or.inr ⟨by simp [Frame.isFor], ?_, ?_⟩
      · simp [Frame.isFor, Ne.symm hd]
      · rw [show (placeFrame _ t).chan d = t.chan d from rfl, ho d hd]; exact .refl _
  · simp only [placeFrame, hl]; rw [countKind_insertFrame]; exact h.2

/-! ### Claims -/

theorem releaseClaim (h : Framed n s) (ch : ChannelId) (hn : NoFrames ch s.line.list) : Framed n (Machine.releaseClaim ch s) := by
  simp only [Machine.releaseClaim]
  split
  · exact h.modChan ch _ (Or.inl hn)
  · next l hl =>
    split
    · exact h.modChan ch _ (Or.inl hn)
    · exact h.placeRelease (by simp [releasePayload]) hn rfl (by rw [State.modChan_chan_self])
        (fun d hd => State.modChan_chan_ne _ _ _ _ (Ne.symm hd))

theorem enterClaiming (h : Framed n s) (ch : ChannelId) (hn : NoFrames ch s.line.list) :
    Framed n (Machine.enterClaiming ch s) := by
  simp only [Machine.enterClaiming]
  split
  · next m e hm he =>
    let claim : LocalClaim := ⟨s.claimCounter, .queued, m.target, e.priority, m.duration, Timer.off, Timer.off⟩
    let f := fun c : Channel => { c with phase := Phase.claiming, settle := Timer.off, settled := false, claim := some claim }
    have hq : Queued ((s.modChan ch f).chan ch) := by
      rw [State.modChan_chan_self]; exact ⟨rfl, _, rfl, rfl⟩
    exact h.placeClaim (t := { s.modChan ch f with
        claimCounter := s.claimCounter + 1
        budget := { s.budget with
          lastClaimStart := some s.now, pace := Timer.start (1000 * s.setup.paceInterval), pacePassed := false } })
      (by simp [claimPayload]) hn rfl hq (fun d hd => State.modChan_chan_ne s ch d f (Ne.symm hd))
  · exact h

end Framed

end Sys2Proof.Machine
end

section
/-! SUPPORT for O7. The transmit list under stops, claims, pickups and requests. -/

namespace Sys2Proof.Machine

open Sys2Proof

namespace Framed

variable {n : Nat} {s t : State}

/-! ### Entries, outcomes and stops -/

theorem finalOutcome (h : Framed n s) (p : PortId) (o : FinalOutcome) : Framed n (Machine.finalOutcome p o s) := by
  simp only [Machine.finalOutcome]
  split
  · exact h
  · next e _ =>
    have h1 : Framed n (takeOutcome e o (removeEntry p s)) :=
      Framed.raise (s := (removeEntry p s).modPort e.target (storeOutcome e o)) (h.same rfl rfl) _
    refine Framed.only ?_ (sweepAfter_only _ _)
    refine Framed.same (s := secondDownshiftTest p (takeOutcome e o (removeEntry p s))) ?_ rfl rfl
    simp only [secondDownshiftTest]
    split
    · split
      · exact Framed.raise (s := ((takeOutcome e o (removeEntry p s)).modPort p _).modPort p _)
          (Framed.same h1 rfl rfl) _
      · exact h1.same rfl rfl
    · exact h1

theorem dropWaiting (h : Framed n s) (p : PortId) : Framed n (Machine.dropWaiting p s) := by
  simp only [Machine.dropWaiting]
  split
  · exact h
  · exact (h.same (t := removeEntry p s) rfl rfl).only (sweepAfter_only _ _)

theorem giveBack (h : Framed n s) (ch : ChannelId) : Framed n (Machine.giveBack ch s) := by
  simp only [Machine.giveBack]
  split
  · exact h
  · exact h.same rfl rfl

end Framed

theorem stopMeasurement_claim (o : StopOutcome) (c : Channel) :
    (stopMeasurement o c).phase = c.phase ∧ (stopMeasurement o c).claim = c.claim := by
  cases o <;> exact ⟨rfl, rfl⟩

theorem burstMeasurement_claim (o : FinalOutcome) (c : Channel) :
    (burstMeasurement o c).phase = c.phase ∧ (burstMeasurement o c).claim = c.claim := by
  cases o <;> exact ⟨rfl, rfl⟩

/-- A final outcome leaves the channels alone. -/
theorem finalOutcome_channels (p : PortId) (o : FinalOutcome) (s : State) : (finalOutcome p o s).channels = s.channels := by
  simp only [finalOutcome]
  split
  · rfl
  · rw [show ∀ b u, (sweepAfter b u).channels = u.channels from fun b u => by rw [sweepAfter_only b u]]
    have h2 : ∀ u, (secondDownshiftTest p u).channels = u.channels := fun u => by
      simp only [secondDownshiftTest]
      split
      · split
        · simp only [setDownshift, raise_channels]; rfl
        · rfl
      · rfl
    rw [unhold, State.modPort_channels, h2, takeOutcome, raise_channels]; rfl

/-- The line is l but for its transmit list. -/
def LineButList (l : Line) (s : State) : Prop := s.line = { l with list := s.line.list }

theorem LineButList.onLine {l : Line} {s : State} (h : LineButList l s) : s.line.onLine = l.onLine := by
  rw [LineButList] at h; rw [h]

theorem lineButList_raise {l : Line} {s : State} (h : LineButList l s) (e : Event) : LineButList l (raise e s) := by
  simp only [LineButList, raise] at h ⊢
  split
  · simp only [placeFrame]; rw [h]
  · exact h

/-- Of the line the shared operations change the transmit list alone. -/
theorem lineButList_closed (l : Line) : Closed (LineButList l) where
  quiet _ _ _ _ _ _ _ _ h := h
  raised e _ h := lineButList_raise h e
  minor _ _ _ _ h := h
  unheld _ _ _ _ _ h := h
  held _ _ _ _ h := h
  dropHeld p s _ _ h := lineButList_raise (s := s.modPort p (dropPort .heldForMeasurement)) h _
  shadows _ h := h
  channel _ _ _ _ h := h
  begun _ _ _ _ _ h := h
  placed f s _ _ h := by simp only [LineButList, placeFrame] at h ⊢; rw [h]
  taken ch s h := by simp only [LineButList, takeFrameOut] at h ⊢; rw [h]

/-- Ending a measurement keeps the channel's phase and claim, and the frame on the line. -/
theorem endWith_claim (ch : ChannelId) (o : StopOutcome) (s : State) :
    ((endWith ch o s).chan ch).phase = (s.chan ch).phase ∧ ((endWith ch o s).chan ch).claim = (s.chan ch).claim ∧
      (endWith ch o s).line.onLine = s.line.onLine := by
  have hl : LineButList s.line (endWith ch o s) := (lineButList_closed s.line).endWith ch o s rfl
  have hc : ∀ u : State, u.channels = s.channels →
      ((u.modChan ch (stopMeasurement o)).chan ch).phase = (s.chan ch).phase ∧
        ((u.modChan ch (stopMeasurement o)).chan ch).claim = (s.chan ch).claim := fun u h1 => by
    have hu : u.chan ch = s.chan ch := by simp only [State.chan, h1]
    rw [State.modChan_chan_self, (stopMeasurement_claim o _).1, (stopMeasurement_claim o _).2, hu]
    exact ⟨rfl, rfl⟩
  have hg : (giveBack ch s).channels = s.channels := by
    simp only [giveBack]; split <;> rfl
  have hp : ((endWith ch o s).chan ch).phase = (s.chan ch).phase ∧ ((endWith ch o s).chan ch).claim = (s.chan ch).claim := by
    simp only [endWith]
    refine hc _ ?_
    split
    · rfl
    · cases o
      · exact finalOutcome_channels _ _ s
      · exact finalOutcome_channels _ _ s
      · exact hg
      · exact hg
  exact ⟨hp.1, hp.2, hl.onLine⟩

/-- A sent claim is no longer QUEUED. -/
theorem not_queued_of_sent {c : Channel} (h : claimSent c = true) : ¬Queued c := by
  rintro ⟨-, l, hl, hq⟩
  simp [claimSent, hl, hq] at h

theorem not_queued_of_holdoff {c : Channel} {l : LocalClaim} (h : holdoffClaim c = some l) :
    c.phase = .claiming ∧ c.claim = some l ∧ l.state = .holdoff := by
  simp only [holdoffClaim] at h
  split at h
  · next hp hc =>
    split at h
    · next hs => cases h; exact ⟨hp, hc, hs⟩
    · cases h
  · cases h

namespace Framed

variable {n : Nat} {s t : State}

theorem endWith (h : Framed n s) (ch : ChannelId) (o : StopOutcome) : Framed n (Machine.endWith ch o s) := by
  have hc : ∀ u : State, Framed n u → Framed n (u.modChan ch (stopMeasurement o)) := fun u hu =>
    hu.modChan ch _ (Or.inr (.of_eq (stopMeasurement_claim o _).1 (stopMeasurement_claim o _).2))
  simp only [Machine.endWith]
  refine hc _ ?_
  split
  · exact h
  · cases o
    · exact h.finalOutcome _ _
    · exact h.finalOutcome _ _
    · exact h.giveBack ch
    · exact h.giveBack ch

/-- The CLAIM of a channel leaves the list unsent, where it is not on the line, and the channel is IDLE. -/
theorem dropUnsentClaim (h : Framed n s) (ch : ChannelId) (hr : (s.chan ch).phase ≠ .releasing)
    (ho : ∀ o, s.line.onLine = some o → o.frame.isFor .claim ch = false) : Framed n (Machine.dropUnsentClaim ch s) := by
  have hsub : (takeOut (fun f => f.isFor .claim ch) s.line.list).Sublist s.line.list := takeOut_sublist _ _
  have hn : NoFrames ch (takeOut (fun f => f.isFor .claim ch) s.line.list) := by
    refine ⟨?_, ?_⟩
    · by_cases he : ∃ f ∈ s.line.list, f.isFor .claim ch = true
      · have h1 := filter_takeOut_length (test := fun f => f.isFor .claim ch) (p := fun f => f.isFor .claim ch) (fun _ => id) he
        have h2 := (h.1.claims ch).1
        simp only [countFor] at h2 ⊢; omega
      · exact countFor_eq_zero.2 (fun f hf => by
          have : ¬f.isFor .claim ch = true := fun hx => he ⟨f, hsub.subset hf, hx⟩
          simpa using this)
    · have h1 : countFor .release ch s.line.list = 0 := by_contra fun e => hr ((h.1.releases ch).2 e)
      exact Nat.le_zero.1 (h1 ▸ (hsub.filter _).length_le)
  refine h.shrink hsub (fun d => ?_) (fun o hoo => ?_)
  · by_cases hd : ch = d
    · subst hd; exact Or.inl hn
    · rw [show (Machine.dropUnsentClaim ch s).chan d = s.chan d from State.modChan_chan_ne _ _ _ _ hd]
      exact Or.inr (.refl _)
  · obtain ⟨a, b, c⟩ := h.1.onLine o hoo
    exact ⟨mem_takeOut_of_not a (ho o hoo), b, c⟩

/-- A stop takes effect where the channel is not RELEASING and its CLAIM not on the line. -/
theorem stopNow (h : Framed n s) (ch : ChannelId) (o : StopOutcome) (hr : (s.chan ch).phase ≠ .releasing)
    (ho : ∀ o, s.line.onLine = some o → o.frame.isFor .claim ch = false) : Framed n (Machine.stopNow ch o s) := by
  obtain ⟨e1, e2, e3⟩ := endWith_claim ch o s
  have h1 : Framed n (Machine.endWith ch o s) := h.endWith ch o
  simp only [Machine.stopNow]
  split
  · next hs =>
    refine h1.releaseClaim ch (h1.1.noFrames (not_queued_of_sent ?_) (by rw [e1]; exact hr))
    simp only [claimSent, e2]; exact hs
  · exact h1.dropUnsentClaim ch (by rw [e1]; exact hr) (by rw [e3]; exact ho)

/-- No CLAIM of a channel is on the line that does not wait for its sending. -/
theorem claim_off_line (h : Framed n s) {ch : ChannelId} (hq : ¬Queued (s.chan ch)) :
    ∀ o, s.line.onLine = some o → o.frame.isFor .claim ch = false := fun o ho =>
  countFor_eq_zero.1 (by_contra fun e => hq ((h.1.claims ch).2 e)) _ (h.1.onLine o ho).1

theorem stopChannel (h : Framed n s) (ch : ChannelId) (o : StopOutcome) : Framed n (Machine.stopChannel ch o s) := by
  have hp : ∀ x : StopOutcome, Framed n (s.modChan ch (fun c => { c with stop := some x })) := fun x =>
    h.modChan ch _ (Or.inr (.of_eq rfl rfl))
  have hs : ∀ x, (s.chan ch).phase ≠ .releasing → (s.chan ch).phase ≠ .claiming → Framed n (Machine.stopNow ch x s) :=
    fun x h1 h2 => h.stopNow ch x h1 (h.claim_off_line (not_queued_of_phase h2))
  simp only [Machine.stopChannel]
  split
  · exact h
  · exact h
  · next hph => exact hs _ (by rw [hph]; simp) (by rw [hph]; simp)
  · next hph =>
    split
    · exact hp _
    · next hc =>
      refine h.stopNow ch _ (by rw [hph]; simp) (fun o ho => ?_)
      simpa [claimOnLine, ho] using hc
  · next hph => exact hs _ (by rw [hph]; simp) (by rw [hph]; simp)
  · next hph =>
    split
    · exact hp _
    · exact hs _ (by rw [hph]; simp) (by rw [hph]; simp)

/-! ### Pickups and what follows a change -/

/-- The channel is IDLE: any change of it is one that the list allows. -/
theorem noFrames_of_idle (h : Framed n s) {ch : ChannelId} (hp : (s.chan ch).phase = .idle) : NoFrames ch s.line.list :=
  h.1.noFrames (not_queued_of_phase (by rw [hp]; simp)) (by rw [hp]; simp)

theorem pickup (h : Framed n s) (ch : ChannelId) (e : Entry) (hi : (s.chan ch).phase = .idle) :
    Framed n (Machine.pickup ch e s) := by
  have h1 : Framed n (startPickup ch e s) :=
    Framed.modChan (s := setHolder e.target (some ch) s) (h.same rfl rfl) ch clearMeasurement (Or.inr (.of_eq rfl rfl))
  have i1 : ((startPickup ch e s).chan ch).phase = .idle := by
    rw [startPickup, State.modChan_chan_self]; exact hi
  have h2 : Framed n (hold e.target addChannelHold (startPickup ch e s)) := h1.same rfl rfl
  have n2 : NoFrames ch (startPickup ch e s).line.list := h1.noFrames_of_idle i1
  have hc : Framed n (Machine.enterClaiming ch (beginMeasurement ch .claiming (measurementOf s e)
      (hold e.target addChannelHold (startPickup ch e s)))) :=
    Framed.enterClaiming (h2.modChan ch _ (Or.inl n2)) ch n2
  simp only [Machine.pickup]
  split
  · exact h1.finalOutcome _ _
  · split
    · have h3 : Framed n (hold e.target addChannelHold (dropLink e.target .heldForMeasurement (startPickup ch e s))) :=
        Framed.same (Framed.raise (s := (startPickup ch e s).modPort e.target (dropPort .heldForMeasurement))
          (h1.same rfl rfl) _) rfl rfl
      have i3 : ((hold e.target addChannelHold (dropLink e.target .heldForMeasurement (startPickup ch e s))).chan ch).phase =
          .idle := by
        simp only [hold, dropLink, State.modPort_chan, raise_chan]; exact i1
      exact (h3.modChan ch _ (Or.inl (h3.noFrames_of_idle i3))).modChan ch _ (Or.inr (.of_eq rfl rfl))
    · exact h1.finalOutcome _ _
  all_goals exact hc

theorem offerTo (h : Framed n s) {ch : ChannelId} (ht : Machine.offerTo ch s = some t) : Framed n t := by
  simp only [Machine.offerTo] at ht
  split at ht
  · next hg =>
    obtain ⟨e, -, rfl⟩ := Option.map_eq_some_iff.1 ht
    simp only [Bool.and_eq_true, beq_iff_eq] at hg
    exact h.pickup ch e hg.2
  · cases ht

theorem offers (h : Framed n s) (k : Nat) : Framed n (Machine.offers k s) := by
  induction k generalizing s with
  | zero => exact h
  | succ k ih =>
    simp only [Machine.offers]
    split
    · next ht => exact ih (h.offerTo ht)
    · split
      · next ht => exact ih (h.offerTo ht)
      · exact h

/-- The channels that stand ready in a phase move on, each by a move that leaves the other channel alone. -/
theorem moveReady (h : Framed n s) (ready : State → ChannelId → Bool) (move : ChannelId → State → State) (ph : Phase)
    (hr : ∀ u ch, ready u ch = true → (u.chan ch).phase = ph)
    (hm : ∀ ch u, (u.chan ch).phase = ph → Framed n u → Framed n (move ch u))
    (ho : ∀ c d u, c ≠ d → (move c u).chan d = u.chan d) : Framed n (Machine.moveReady ready move s) := by
  have h0 : Framed n { s with draws := s.draws + 1 } := h.same rfl rfl
  simp only [Machine.moveReady]
  split
  · next hb =>
    obtain ⟨r0, r1⟩ := Bool.and_eq_true_iff.1 hb
    split
    · exact hm 0 _ (by rw [ho 1 0 _ (by decide)]; exact hr s 0 r0) (hm 1 _ (hr s 1 r1) h0)
    · exact hm 1 _ (by rw [ho 0 1 _ (by decide)]; exact hr s 1 r1) (hm 0 _ (hr s 0 r0) h0)
  · split
    · next r0 => exact hm 0 _ (hr s 0 r0) h
    · split
      · next r1 => exact hm 1 _ (hr s 1 r1) h
      · exact h

end Framed

/-- A write of one channel leaves the other. -/
theorem chan_of_set {s t : State} {c d : ChannelId} {x : Channel} (ht : t.channels = s.channels.set c.val x c.isLt)
    (h : c ≠ d) : t.chan d = s.chan d := by
  have hv : ¬c.val = d.val := fun e => h (Fin.ext e)
  simp [State.chan, ht, hv]

theorem enterClaiming_other {c d : ChannelId} (h : c ≠ d) (s : State) : (enterClaiming c s).chan d = s.chan d := by
  simp only [enterClaiming]
  split
  · exact chan_of_set rfl h
  · rfl

theorem enterBursting_other {c d : ChannelId} (h : c ≠ d) (s : State) : (enterBursting c s).chan d = s.chan d :=
  chan_of_set rfl h

namespace Framed

variable {n : Nat} {s t : State}

theorem enterBursting (h : Framed n s) (ch : ChannelId) (hn : NoFrames ch s.line.list) :
    Framed n (Machine.enterBursting ch s) := by
  refine h.congr rfl (fun d => ?_)
  by_cases hd : ch = d
  · subst hd; exact Or.inl hn
  · rw [enterBursting_other hd]; exact Or.inr (.refl _)

theorem arbitrate (h : Framed n s) : Framed n (Machine.arbitrate s) := h.offers 64

theorem updateShadows (h : Framed n s) : Framed n (Machine.updateShadows s) := h.same rfl rfl

theorem moveToBurst (h : Framed n s) : Framed n (Machine.moveReady readyToBurst Machine.enterBursting s) := by
  refine h.moveReady _ _ .waitYield (fun u ch hr => ?_) (fun ch u hp hu => ?_) (fun c d u hd => enterBursting_other hd u)
  · simp only [readyToBurst, Bool.and_eq_true, beq_iff_eq] at hr; exact hr.1
  · exact hu.enterBursting ch (hu.1.noFrames (not_queued_of_phase (by rw [hp]; simp)) (by rw [hp]; simp))

theorem moveToClaim (h : Framed n s) : Framed n (Machine.moveReady readyToClaim Machine.enterClaiming s) := by
  refine h.moveReady _ _ .preparing (fun u ch hr => ?_) (fun ch u hp hu => ?_) (fun c d u hd => enterClaiming_other hd u)
  · simp only [readyToClaim, Bool.and_eq_true, beq_iff_eq] at hr; exact hr.1.1
  · exact hu.enterClaiming ch (hu.1.noFrames (not_queued_of_phase (by rw [hp]; simp)) (by rw [hp]; simp))

theorem react (h : Framed n s) : Framed n (Machine.react s) := h.moveToBurst.moveToClaim.updateShadows.arbitrate

theorem finishBurst (h : Framed n s) (ch : ChannelId) (o : FinalOutcome) (hb : (s.chan ch).phase = .bursting) :
    Framed n (Machine.finishBurst ch o s) := by
  simp only [Machine.finishBurst]
  split
  · exact h
  · next m _ =>
    have h1 := h.finalOutcome m.port o
    have hp : ((Machine.finalOutcome m.port o s).chan ch).phase = .bursting := by
      simp only [State.chan, finalOutcome_channels]; exact hb
    refine Framed.releaseClaim (h1.modChan ch _
      (Or.inr (.of_eq (burstMeasurement_claim o _).1 (burstMeasurement_claim o _).2))) ch ?_
    exact h1.1.noFrames (not_queued_of_phase (by rw [hp]; simp)) (by rw [hp]; simp)

end Framed

/-! ### The moves -/

theorem framed_moves (n : Nat) : SharedMoves (Framed n) where
  raised e _ h := h.raise e
  quiet _ _ _ h := h.same rfl rfl
  merged _ _ _ _ _ h := h.same rfl rfl
  added _ _ _ _ _ h := h.same rfl rfl
  requested _ _ _ _ ht h := h.only (autoRequest_only ht)
  swept s h := h.only (sweepAdvance_only s)
  sweepEnded _ h := h.same rfl rfl
  sweepRetired _ h := h.same rfl rfl
  outcome p o _ h := h.finalOutcome p o
  waitingDropped p _ h := h.dropWaiting p
  react _ h := h.react
  stopped ch o _ h := h.stopChannel ch o
  stoppedNow ch o s hp h := by
    have hq : (s.chan ch).phase ≠ .releasing ∧ ¬Queued (s.chan ch) := by
      rcases hp with hp | ⟨l, hl⟩
      · exact ⟨by rw [hp]; simp, not_queued_of_phase (by rw [hp]; simp)⟩
      · obtain ⟨h1, h2, h3⟩ := not_queued_of_holdoff hl
        refine ⟨by rw [h1]; simp, ?_⟩
        rintro ⟨-, k, hk, hs⟩
        rw [h2] at hk; cases hk; rw [h3] at hs; cases hs
    exact h.stopNow ch o hq.1 (h.claim_off_line hq.2)
  finished ch o _ hb h := h.finishBurst ch o hb
  chan ch f _ hf h := h.modChan ch f (Or.inr (.of_eq (hf _).1 (hf _).2.1))
  burst ch l s hl h := by
    obtain ⟨h1, h2, h3⟩ := not_queued_of_holdoff hl
    refine h.enterBursting ch (h.1.noFrames ?_ (by rw [h1]; simp))
    rintro ⟨-, k, hk, hs⟩
    rw [h2] at hk; cases hk; rw [h3] at hs; cases hs
  waitsYield ch l s hl h := by
    obtain ⟨h1, h2, h3⟩ := not_queued_of_holdoff hl
    refine h.modChan ch _ (Or.inl (h.1.noFrames ?_ (by rw [h1]; simp)))
    rintro ⟨-, k, hk, hs⟩
    rw [h2] at hk; cases hk; rw [h3] at hs; cases hs

/-- An empty list is sound. -/
theorem framed_empty {n : Nat} {s : State} (h1 : s.line.list = []) (h2 : s.line.onLine = none) : Framed n s := by
  have hk : ∀ k, countKind k s.line.list = 0 := fun k => by rw [h1]; rfl
  have hf : ∀ k ch, countFor k ch s.line.list = 0 := fun k ch => by rw [h1]; rfl
  refine ⟨.of (by rw [h1]; exact .nil) ?_ ?_ (by rw [h1]; simp) ?_ (by rw [h1]; simp)
    (fun ch => ?_) (fun ch => ?_) (by rw [h2]; simp), ?_⟩
  · rw [hk]; exact Nat.zero_le _
  · rw [hk]; exact Nat.zero_le _
  · rw [hk]; exact Nat.zero_le _
  · rw [hf]; exact ⟨Nat.zero_le _, fun e => absurd rfl e⟩
  · rw [hf]; exact ⟨Nat.zero_le _, fun e => absurd rfl e⟩
  · rw [hk]; exact Nat.zero_le _

theorem framed_own (n : Nat) : OwnMoves (Framed n) (Framed n) where
  start _ h := h
  port _ _ _ _ _ h := h.same rfl rfl
  fronts _ _ _ h := h.same rfl rfl
  drawn _ _ h := h.same rfl rfl
  raisedFirst e _ h := h.raise e
  reported _ h := h.same rfl rfl
  controller _ _ _ _ _ h := h.same rfl rfl
  leaves _ _ _ _ _ h := h.same rfl rfl
  stored _ _ _ _ h := h.same rfl rfl
  phase _ _ _ _ _ _ h := h.same rfl rfl
  run _ _ h := h.same rfl rfl
  reset _ _ _ _ _ := framed_empty rfl rfl
  portAfter _ _ _ _ _ h := h.same rfl rfl
  view _ _ _ h := h.same rfl rfl

theorem framed_ops (n : Nat) : OpsClosed (Framed n) (Framed n) where
  toOwnMoves := framed_own n
  toSharedMoves := framed_moves n

end Sys2Proof.Machine
end

section
/-! PROOF of O7: the transmit list under the commands of the line. -/

namespace Sys2Proof.Machine

open Sys2Proof

/-! ### What reading bits leaves alone -/

theorem readBit_list (b : Bool) (l : Line) : (readBit b l).list = l.list ∧ (readBit b l).onLine = l.onLine ∧
    (readBit b l).listenIn = l.listenIn ∧ (readBit b l).duplicate = l.duplicate := by
  rw [readBit_rest]; exact ⟨rfl, rfl, rfl, rfl⟩

/-- A bit time does not make the line STUCK (R149: the entry does). -/
theorem readBit_not_stuck (b : Bool) {l : Line} (h : l.condition ≠ .stuck) : (readBit b l).condition ≠ .stuck := by
  have hs : ∀ k : Line, k.condition ≠ .stuck → (settleCondition k).condition ≠ .stuck := fun k hk => by
    simp only [settleCondition, if_neg hk]
    split <;> simp
  unfold readBit
  split
  · simp only [readWithin]
    split
    · exact h
    · split <;> exact h
  · simp only [readBetween]
    split
    · simp [appendBit]
    · exact hs _ h

theorem foldl_readBit_list (bits : List Bool) (l : Line) :
    (bits.foldl (fun l b => readBit b l) l).list = l.list ∧ (bits.foldl (fun l b => readBit b l) l).onLine = l.onLine := by
  induction bits generalizing l with
  | nil => exact ⟨rfl, rfl⟩
  | cons b bs ih =>
    obtain ⟨h1, h2⟩ := ih (readBit b l)
    obtain ⟨g1, g2, -⟩ := readBit_list b l
    exact ⟨h1.trans g1, h2.trans g2⟩

theorem checkedLine_list (bits : List Bool) (l : Line) :
    (checkedLine bits l).list = l.list ∧ (checkedLine bits l).onLine = l.onLine := by
  simp only [checkedLine]
  split
  · exact ⟨rfl, rfl⟩
  · exact foldl_readBit_list bits _

theorem conflictLine_list (o : OnLine) (l : Line) : (conflictLine o l).list = l.list := by
  simp only [conflictLine]
  split
  · rfl
  · exact (readBit_list _ _).1

/-- What a departure leaves of the list and of the own frame. -/
theorem departFrame_line (how : Departure) (test : Frame → Bool) (s : State) :
    (departFrame how test s).line.list = takeOut test s.line.list ∧
      (departFrame how test s).channels = s.channels ∧
      (how ≠ .discarded → (departFrame how test s).line.onLine = none) ∧
      (s.line.onLine = none → (departFrame how test s).line.onLine = none) := by
  refine ⟨rfl, rfl, fun hne => ?_, fun hn => ?_⟩
  · simp only [departFrame]
    cases ho : s.line.onLine with
    | none => exact ho
    | some o =>
      cases how with
      | sent => rfl
      | voided => rfl
      | abandoned => rfl
      | discarded => exact absurd rfl hne
  · simp only [departFrame, hn]

namespace Framed

variable {n : Nat} {s t : State}

/-- The own frame has left the line, and the list stays. -/
theorem offLine (h : Framed n s) (hl : t.line.list = s.line.list) (ho : t.line.onLine = none) (hc : t.channels = s.channels) :
    Framed n t :=
  h.shrink (by rw [hl]) (fun ch => Or.inr (by simp only [State.chan, hc]; exact .refl _)) (by rw [ho]; simp)

/-- Line trouble leaves no own frame on the line. -/
theorem onLine_none (h : Framed n s) (ht : s.line.condition = .stuck ∨ s.line.listenIn.running = true) :
    s.line.onLine = none := by
  cases ho : s.line.onLine with
  | none => rfl
  | some o =>
    obtain ⟨-, h1, h2⟩ := h.1.onLine o ho
    rcases ht with e | e
    · exact absurd e h1
    · rw [h2] at e; cases e

/-- A departure takes a frame out of the list, and the own frame off the line. -/
theorem departs (h : Framed n s) (how : Departure) (test : Frame → Bool)
    (ho : how = .discarded → s.line.onLine = none) : Framed n (departFrame how test s) := by
  obtain ⟨h1, h2, h3, h4⟩ := departFrame_line how test s
  refine h.shrink (by rw [h1]; exact takeOut_sublist _ _) (fun ch => Or.inr (by simp only [State.chan, h2]; exact .refl _)) ?_
  by_cases hd : how = .discarded
  · rw [h4 (ho hd)]; simp
  · rw [h3 hd]; simp

end Framed

/-- A departure that can arise is of a listed frame of the test, and none stays on the line. -/
theorem Framed.canDepart_listed {n : Nat} {s : State} (h : Framed n s) {how : Departure} {b : Bool} {test : Frame → Bool}
    (hb : b = true → s.line.condition = .stuck ∨ s.line.listenIn.running = true) (hc : canDepart how b test s = true) :
    (∃ f ∈ s.line.list, test f = true) ∧ (how = .discarded → s.line.onLine = none) := by
  have own : (s.line.onLine.any fun o => test o.frame && leavesLine how o s.line) = true → ∃ f ∈ s.line.list, test f = true :=
    fun hx => by
      cases ho : s.line.onLine with
      | none => rw [ho] at hx; cases hx
      | some o =>
        rw [ho] at hx
        exact ⟨o.frame, (h.1.onLine o ho).1, (Bool.and_eq_true _ _ ▸ hx).1⟩
  cases how with
  | sent => exact ⟨own hc, by simp⟩
  | voided => exact ⟨own hc, by simp⟩
  | abandoned => exact ⟨own hc, by simp⟩
  | discarded =>
    simp only [canDepart, Bool.and_eq_true, List.any_eq_true] at hc
    exact ⟨hc.2, fun _ => h.onLine_none (hb hc.1)⟩

/-- The frame of a channel that is taken out is its only one. -/
theorem countFor_takeOut {k : FrameKind} {ch : ChannelId} {test : Frame → Bool} {l : List Frame}
    (ht : ∀ f, test f = true → f.isFor k ch = true) (he : ∃ f ∈ l, test f = true) (h1 : countFor k ch l ≤ 1) :
    countFor k ch (takeOut test l) = 0 ∧ countFor k ch l ≠ 0 := by
  have := filter_takeOut_length (p := fun f => f.isFor k ch) ht he
  simp only [countFor] at h1 ⊢; omega

namespace Framed

variable {n : Nat} {s t : State}

/-- A channel's frame of a kind leaves the list by a departure. -/
theorem departs_for (h : Framed n s) {k : FrameKind} (hk : k = .claim ∨ k = .release) {ch : ChannelId} {how : Departure}
    {test : Frame → Bool} (ht : ∀ f, test f = true → f.isFor k ch = true) (he : ∃ f ∈ s.line.list, test f = true)
    (ho : how = .discarded → s.line.onLine = none) :
    Framed n (departFrame how test s) ∧ NoFrames ch (departFrame how test s).line.list ∧
      (s.chan ch).phase = (if k = .claim then .claiming else .releasing) := by
  have hd := h.departs how test ho
  have hsub : (departFrame how test s).line.list.Sublist s.line.list := takeOut_sublist _ _
  have hz : ∀ k', countFor k' ch s.line.list = 0 → countFor k' ch (departFrame how test s).line.list = 0 := fun k' e =>
    Nat.le_zero.1 (e ▸ (hsub.filter _).length_le)
  rcases hk with rfl | rfl
  · obtain ⟨z, nz⟩ := countFor_takeOut ht he (h.1.claims ch).1
    have hp := ((h.1.claims ch).2 nz).1
    refine ⟨hd, ⟨z, hz _ (by_contra fun e => ?_)⟩, hp⟩
    rw [(h.1.releases ch).2 e] at hp; cases hp
  · obtain ⟨z, nz⟩ := countFor_takeOut ht he (h.1.releases ch).1
    have hp := (h.1.releases ch).2 nz
    refine ⟨hd, ⟨hz _ (by_contra fun e => ?_), z⟩, hp⟩
    rw [((h.1.claims ch).2 e).1] at hp; cases hp

/-- A stop of a channel that has no frame in the list and is CLAIMING. -/
theorem stopNow_of_noFrames (h : Framed n s) (ch : ChannelId) (o : StopOutcome) (hn : NoFrames ch s.line.list)
    (hp : (s.chan ch).phase = .claiming) : Framed n (Machine.stopNow ch o s) :=
  h.stopNow ch o (by rw [hp]; simp) (fun o ho => countFor_eq_zero.1 hn.1 _ (h.1.onLine o ho).1)

/-- The sent claim is judged (R163). -/
theorem judgeOwn (h : Framed n s) (ch : ChannelId) (l : LocalClaim) (hn : NoFrames ch s.line.list)
    (hp : (s.chan ch).phase = .claiming) : Framed n (Machine.judgeOwn ch l s) := by
  have hv : ∀ v, (Framed n v ∧ v.line = s.line ∧ v.chan ch = s.chan ch) → ∀ o, Framed n (Machine.stopNow ch o v) :=
    fun v ⟨h1, h2, h3⟩ o => h1.stopNow_of_noFrames ch o (by rw [h2]; exact hn) (by rw [h3]; exact hp)
  have hr : Framed n (removeLost l.priority s.station.number l.target s) := h.same rfl rfl
  simp only [Machine.judgeOwn]
  generalize hw : (if ownFinding l s = some .withdrawn then s else removeLost l.priority s.station.number l.target s) = v
  have h1 : Framed n v ∧ v.line = s.line ∧ v.chan ch = s.chan ch := by
    subst hw
    split
    · exact ⟨h, rfl, rfl⟩
    · exact ⟨hr, rfl, rfl⟩
  split
  · exact hv v h1 _
  · split
    · exact hv v h1 _
    · exact h1.1

/-- The channel's CLAIM has left the list: it is judged, or ends (Table 8-5). -/
theorem claimDeparted (h : Framed n s) (ch : ChannelId) (how : Departure) (hn : NoFrames ch s.line.list)
    (hp : (s.chan ch).phase = .claiming) : Framed n (Machine.claimDeparted ch how s) := by
  simp only [Machine.claimDeparted]
  split
  · have h1 : Framed n (s.modChan ch startHoldoff) := h.modChan ch _ (Or.inl hn)
    have p1 : ((s.modChan ch startHoldoff).chan ch).phase = .claiming := by rw [State.modChan_chan_self]; exact hp
    simp only [claimSentIntact]
    split
    · exact h1.judgeOwn ch _ hn p1
    · exact h1
  · exact h.stopNow_of_noFrames ch _ hn hp
  · exact h.stopNow_of_noFrames ch _ hn hp
  · exact h

/-- The channel's RELEASE has left the list, if one stood there. -/
theorem channelReleased (h : Framed n s) (ch : ChannelId) (hn : countFor .release ch s.line.list = 0) :
    Framed n (s.modChan ch Machine.channelReleased) := by
  refine h.modChan ch _ ?_
  by_cases hp : (s.chan ch).phase = .releasing
  · exact Or.inl ⟨by_contra fun e => not_queued_of_phase (by rw [hp]; simp) ((h.1.claims ch).2 e), hn⟩
  · simp only [Machine.channelReleased]
    split
    · contradiction
    all_goals exact Or.inr (.refl _)

/-- A REJOIN that leaves unsent is placed once more (R148). -/
theorem rejoinLeft (h : Framed n s) (how : Departure) (f : Frame) (hk : f.kind = .rejoin) (hp : f.payload.length ≤ 15)
    (h0 : countKind .rejoin s.line.list = 0) : Framed n (Machine.rejoinLeft how f s) := by
  simp only [Machine.rejoinLeft]
  split
  · exact h.place { f with retried := true } hp (Or.inl hk) (by rw [hk]; exact h0)
  · split
    · exact h
    · exact h.same rfl rfl

/-- The REJOIN that leaves was the only one. -/
theorem rejoin_departs (h : Framed n s) {how : Departure} {test : Frame → Bool} (ht : ∀ f, test f = true → f.kind = .rejoin)
    (he : ∃ f ∈ s.line.list, test f = true) : countKind .rejoin (departFrame how test s).line.list = 0 := by
  have h1 := filter_takeOut_length (p := fun f => f.kind == .rejoin) (fun f hf => by simp [ht f hf]) he
  have h2 := h.1.rejoin
  simp only [countKind, departFrame] at h2 ⊢; omega

/-- What the block that placed the departed frame does (Table 8-5). -/
theorem departed (h : Framed n s) (o : OnLine) (how : Departure) (ho : s.line.onLine = some o) (hd : how ≠ .discarded) :
    Framed n (Machine.departed how o.frame (departFrame how (fun f => decide (f = o.frame)) s)) := by
  have hm := (h.1.onLine o ho).1
  have he : ∃ f ∈ s.line.list, decide (f = o.frame) = true := ⟨_, hm, by simp⟩
  have ht : ∀ {P : Frame → Prop}, P o.frame → ∀ f, decide (f = o.frame) = true → P f := fun hP f hf => by
    rw [of_decide_eq_true hf]; exact hP
  have h1 : Framed n (departFrame how (fun f => decide (f = o.frame)) s) := h.departs how _ (fun e => absurd e hd)
  simp only [Machine.departed]
  split
  · next ch hk hc =>
    obtain ⟨-, n1, p1⟩ := h.departs_for (Or.inl rfl) (how := how) (ht (P := fun f => f.isFor .claim ch = true) (isFor_iff.2 ⟨hk, hc⟩)) he
      (fun e => absurd e hd)
    exact (h1.claimDeparted ch how n1 p1).react
  · next ch hk hc =>
    obtain ⟨-, n1, -⟩ := h.departs_for (Or.inr rfl) (how := how) (ht (P := fun f => f.isFor .release ch = true) (isFor_iff.2 ⟨hk, hc⟩)) he
      (fun e => absurd e hd)
    exact (h1.channelReleased ch n1.2).react
  · next _ hk =>
    exact (h1.rejoinLeft how _ hk (h.1.list.2.2.2.1 _ hm) (h.rejoin_departs (ht (P := fun f => f.kind = .rejoin) hk) he)).react
  · exact h1

/-- A stop pending on the CLAIM that has lost arbitration takes effect (R88). -/
theorem pendingClaimStop (h : Framed n s) (f : Frame) (hf : f ∈ s.line.list) (ho : s.line.onLine = none) :
    Framed n (Machine.pendingClaimStop f s) := by
  simp only [Machine.pendingClaimStop]
  split
  · next ch hk hc =>
    split
    · have hq : Queued (s.chan ch) := (h.1.claims ch).2 (fun e => by
        have := countFor_eq_zero.1 e f hf
        rw [isFor_iff.2 ⟨hk, hc⟩] at this; cases this)
      exact (h.stopNow ch _ (by rw [hq.1]; simp) (by rw [ho]; simp)).react
    · exact h
  · exact h

/-- The RELEASE and REPORT frames are discarded under line trouble (R150). -/
theorem discardReleases (h : Framed n s) (ho : s.line.onLine = none) : Framed n (releaseAllDiscarded s) := by
  let t : State := { s with line.list := s.line.list.filter (fun f => !(isKind .release f || isKind .report f)) }
  have h1 : Framed n t := h.shrink List.filter_sublist (fun _ => Or.inr (.refl _))
    (by rw [show t.line.onLine = none from ho]; simp)
  have h0 : ∀ ch, countFor .release ch t.line.list = 0 := fun ch => countFor_eq_zero.2 (fun f hf => by
    have := (List.mem_filter.1 hf).2
    simp [isKind] at this
    simp [Frame.isFor, this.1])
  exact (h1.channelReleased 0 (h0 0)).channelReleased 1 (h0 1)

/-- Entry to STUCK (R149, R150). -/
theorem enterStuck (h : Framed n s) : Framed n (Machine.enterStuck s) := by
  have h1 : Framed n (Machine.trouble (Machine.raise .lineStuck { s with line := lineStuck s.line })) :=
    (framed_moves n).trouble _ (Framed.raise (s := { s with line := lineStuck s.line }) (h.offLine rfl rfl rfl) _)
  have hl : LineButList (lineStuck s.line) (Machine.trouble (Machine.raise .lineStuck { s with line := lineStuck s.line })) :=
    (lineButList_closed _).trouble _ ((lineButList_closed _).raised _ _ rfl)
  have ho : (Machine.trouble (Machine.raise .lineStuck { s with line := lineStuck s.line })).line.onLine = none :=
    hl.onLine
  exact (h1.discardReleases ho).react

/-! ### Requests -/

/-- The answer of a request takes the place that the overrun check has left (R146, R171). -/
theorem reply (h : Framed 1 s) (kind : Byte) (a : Answer) (ha : (answerBytes a).length ≤ 14) :
    Framed 2 (Machine.reply kind a s) := by
  refine framed_two.2 (h.1.insert (f := reportFrame kind a) rfl ?_ (by simp [reportFrame]) (fun _ => h.2)
    (by simp [reportFrame]) (by simp [reportFrame]) (fun ch => Or.inr ⟨?_, ?_, .refl _⟩))
  · simp only [reportFrame, List.length_cons]; omega
  · simp [reportFrame, Frame.isFor]
  · simp [reportFrame, Frame.isFor]

theorem requestLayer (h : Framed 2 s) (b : Bool) (payload : List Byte) (serve : State → Served) (hs : Serving b payload serve) :
    Framed 2 (Machine.requestLayer b payload serve s) := by
  simp only [Machine.requestLayer]
  split
  · exact Framed.raise (s := { s with counters := { s.counters with overruns := satCount s.counters.overruns } })
      (h.same rfl rfl) _
  · next ho =>
    have h1 : Framed 1 s := ⟨h.1, by simp only [overrun, decide_eq_true_eq] at ho; omega⟩
    split
    · exact h1.reply _ _ (by simp [answerBytes])
    · next hf =>
      obtain ⟨ha, hj⟩ := hs (Framed 1) (Framed 1) (framed_ops 1) s hf h1
      simp only [serveRequest]
      split
      · next a hsome => exact hj.reply _ a (ha a hsome)
      · exact framed_two.2 hj.1

theorem placeRejoin (h : Framed n s) (c : StartCause) : Framed n (Machine.placeRejoin c s) := by
  simp only [Machine.placeRejoin]
  split
  · next h0 => exact h.place (rejoinFrame c) (by simp [rejoinFrame]) (Or.inl rfl) h0
  · exact h

end Framed

/-! ### Every command -/

/-- Every command of the line keeps the list sound. -/
theorem framed_ofLine (c : Instr) (s : State) (hc : ofLine c = true) (h : Framed 2 s) : Answers (Framed 2) (exec c s) := by
  cases c <;> cases hc
  case claimFrameDeparture ch how =>
    refine .next ?_
    split
    · next hd =>
      obtain ⟨he, ho⟩ := h.canDepart_listed (by simp) hd
      obtain ⟨h1, n1, p1⟩ := h.departs_for (Or.inl rfl) (fun _ => id) he ho
      exact (h1.claimDeparted ch how n1 p1).react
    · exact h
  case releaseDeparture ch how =>
    refine .next ?_
    split
    · next hd =>
      obtain ⟨he, ho⟩ := h.canDepart_listed (fun e => (releaseDiscarded_iff s).1 e) hd
      obtain ⟨h1, n1, -⟩ := h.departs_for (Or.inr rfl) (fun _ => id) he ho
      exact (h1.channelReleased ch n1.2).react
    · exact h
  case frameStart =>
    refine .next ?_
    split
    · exact h
    · next f fs hl =>
      split
      · next hm =>
        simp only [mayStart, Bool.and_eq_true, Bool.not_eq_true'] at hm
        refine h.shrink (.refl _) (fun _ => Or.inr (.refl _)) (fun o ho => ?_)
        cases ho
        exact ⟨by rw [show (startFrame f s).line.list = s.line.list from rfl, hl]; exact List.mem_cons_self ..,
          by simp [startFrame], hm.1.2⟩
      · exact h
  case arbitrationLoss =>
    refine .next ?_
    split
    · exact h
    · next o ho =>
      split
      · have hl := conflictLine_list o s.line
        have h1 : Framed 2 { s with
            line := stopDriving (conflictLine o s.line)
            counters := { s.counters with arbitrationLosses := satCount s.counters.arbitrationLosses } } :=
          h.offLine hl rfl rfl
        have hm : o.frame ∈ (stopDriving (conflictLine o s.line)).list := by
          rw [show (stopDriving (conflictLine o s.line)).list = s.line.list from hl]
          exact (h.1.onLine o ho).1
        exact h1.pendingClaimStop o.frame hm rfl
      · exact h
  case transmitFault =>
    refine .next ?_
    split
    · exact h
    · next o ho =>
      split
      · exact h.departed o .abandoned ho (by simp)
      · exact h
  case receiveCheckFailure bytes check spacers =>
    refine .next ?_
    split
    · next hd =>
      obtain ⟨h1, h2⟩ := checkedLine_list (bitsToCheck bytes check spacers) s.line
      simp only [canTake, Bool.and_eq_true, Option.isNone_iff_eq_none] at hd
      exact h.offLine h1 (h2.trans hd.1.2) rfl
    · exact h
  case reportDeparture how =>
    refine .next ?_
    split
    · next hd => exact h.departs how _ (h.canDepart_listed (fun e => Or.inl (by simpa using e)) hd).2
    · exact h
  case alertDeparture how =>
    refine .next ?_
    split
    · next hd => exact h.departs how _ (h.canDepart_listed (by simp) hd).2
    · exact h
  case rejoinDeparture how =>
    refine .next ?_
    split
    · exact h
    · next f hf =>
      have hk : f.kind = .rejoin := by simpa [isKind] using List.find?_some hf
      split
      · next hd =>
        obtain ⟨he, ho⟩ := h.canDepart_listed (by simp) hd
        exact ((h.departs how _ ho).rejoinLeft how f hk (h.1.list.2.2.2.1 f (List.mem_of_find?_eq_some hf))
          (h.rejoin_departs (fun g hg => by simpa [isKind] using hg) he)).react
      · exact h
  case stuckEntry =>
    refine .next ?_
    split
    · exact h
    · exact h.enterStuck
  case lineReturn =>
    refine .next ?_
    split
    · next hs => exact h.offLine rfl (h.onLine_none (Or.inl hs)) rfl
    · exact h
  case returnListenInEnd =>
    refine .next ?_
    split
    · next hr =>
      exact Framed.react (Framed.placeRejoin (s := { s with line.listenIn := Timer.off })
        (h.offLine rfl (h.onLine_none (Or.inr hr)) rfl) _)
    · exact h
  case lineIdle =>
    refine .next ?_
    split
    · next hb =>
      simp only [betweenFrames, Bool.and_eq_true, Option.isNone_iff_eq_none] at hb
      exact h.offLine rfl hb.1.1 rfl
    · exact h
  case strayBit =>
    refine .next ?_
    split
    · next hb =>
      split
      · exact h.enterStuck
      · simp only [betweenFrames, Bool.and_eq_true, Option.isNone_iff_eq_none] at hb
        obtain ⟨h1, h2, -⟩ := readBit_list false s.line
        exact h.offLine h1 (h2.trans hb.1.1.1.1) rfl
    · exact h

theorem framed_exec : ExecClosed (Framed 2) (Framed 2) where
  toOpsClosed := framed_ops 2
  ended _ h := h.offLine rfl rfl rfl
  noted _ h := h.shrink (.refl _) (fun _ => Or.inr (.refl _)) h.1.onLine
  counted _ _ _ h := h.same rfl rfl
  rejoins c _ h := h.placeRejoin c
  layer b payload serve _ hs h := h.requestLayer b payload serve hs
  line := framed_ofLine

theorem framed_launch (ch : ChannelId) (m : Measurement) (e : Entry) (s : State) (h : Framed 2 s) :
    Framed 2 (launchShot ch m e s) := by
  refine h.congr rfl (fun d => Or.inr ?_)
  by_cases hd : ch = d
  · subst hd
    rw [show (launchShot ch m e s).chan ch = { s.chan ch with
      stage := .capture, launched := (s.chan ch).launched + 1, shot := ⟨true, 4, 16⟩ } from State.modChan_chan_self
        (s.modPort m.port _) ch (fun c => { c with stage := .capture, launched := c.launched + 1, shot := ⟨true, 4, 16⟩ })]
    exact .of_eq rfl rfl
  · rw [launchShot_other hd]; exact .refl _

/-- A µs leaves each channel's frames as they are (R88: a claim keeps its state). -/
theorem tickChannel_carries (c : Channel) : Carries c (tickChannel c) := by
  obtain ⟨-, h2, -, h4⟩ := tickChannel_meas c
  refine ⟨?_, fun h => h2.trans h⟩
  rintro ⟨hp, l, hl, hq⟩
  exact ⟨h2.trans hp, tickClaim l, by rw [h4, hl]; rfl, hq⟩

theorem framed_advance (s : State) (h : Framed 2 s) : Framed 2 (advance s) := by
  obtain ⟨h1, h2, h3, -⟩ := readBit_list (lineLevel s) s.line
  refine h.shrink (by rw [show (advance s).line.list = s.line.list from h1])
    (fun ch => Or.inr (by rw [advance_chan]; exact tickChannel_carries _)) (fun o ho => ?_)
  have ho' : (readBit (lineLevel s) s.line).onLine.map tickOnLine = some o := ho
  rw [h2] at ho'
  obtain ⟨o', hs, rfl⟩ := Option.map_eq_some_iff.1 ho'
  obtain ⟨a, b, c⟩ := h.1.onLine o' hs
  refine ⟨by rw [show (advance s).line.list = s.line.list from h1]; exact a, readBit_not_stuck _ b, ?_⟩
  rw [show (advance s).line.listenIn = (readBit (lineLevel s) s.line).listenIn.tick from rfl, h3, tick_running]
  exact c

/-- Settles O7, by the moves of the commands and the commands of the line. -/
theorem everyStepKeepsTheTransmitListSound : Obligations.EveryStepKeepsTheTransmitListSound := by
  intro s t h ht
  exact framed_two.1 (framed_exec.step (fun _ _ => framed_empty rfl rfl) framed_launch (fun _ _ h => h.same rfl rfl)
    framed_advance (framed_two.2 h) ht)

end Sys2Proof.Machine
end

section
/-! PROOFS of O1, O2, O3, O4 and O12: the machine's steps, the clock, and what the resets leave. -/

namespace Sys2Proof.Machine

open Sys2Proof

/-- Settles O1: the front command runs on the state with the queue's rest, by the definition of a step. -/
theorem stepRunsTheFrontCommand : Obligations.StepRunsTheFrontCommand := fun _ _ _ => rfl

/-! ### The reset state -/

/-- Every port of the reset state is fresh. -/
theorem reset_port (p : PortId) : State.reset.port p = Port.fresh FrontEnd.quiet := by
  fin_cases p <;> rfl

theorem reset_chan (ch : ChannelId) : State.reset.chan ch = Channel.fresh := by
  fin_cases ch <;> rfl

/-- Settles O4: the reset state has empty lists, fresh ports and the default setup store. -/
theorem resetMeetsEveryInvariant : Obligations.ResetMeetsEveryInvariant := by
  refine ⟨queueOk_nil, viewOk_nil, fun p => ?_, framed_two.1 (framed_empty rfl rfl), fun m n h => ?_, setupOk_default⟩
  · rw [reset_port]; exact .fresh _ _
  · rw [reset_chan] at h; cases h

/-- Settles O3: each value is the one that the reset state is built from. -/
theorem resetLeavesTheSpecsValues : Obligations.ResetLeavesTheSpecsValues := by
  refine ⟨fun p => ?_, rfl, rfl, rfl, rfl, rfl, rfl, rfl, rfl, rfl, rfl, rfl, rfl, rfl, fun ch => ?_, ?_⟩
  · rw [reset_port]
    refine ⟨rfl, rfl, rfl, rfl, rfl, rfl, rfl, rfl, rfl, rfl, rfl, ⟨rfl, rfl, rfl, rfl, rfl⟩, rfl, rfl, rfl, rfl, rfl, rfl, rfl,
      rfl, rfl, fun x => ?_, rfl, rfl, rfl, rfl, rfl, rfl, rfl, rfl, rfl, rfl, rfl, rfl, rfl, rfl, rfl, rfl, rfl, rfl, rfl⟩
    cases x <;> exact ⟨rfl, rfl, rfl, rfl, rfl⟩
  · rw [reset_chan]
    refine ⟨rfl, rfl, ?_, rfl, rfl, rfl, rfl, fun x => ?_, rfl, rfl⟩
    · rfl
    · cases x <;> rfl
  · refine ⟨rfl, rfl, rfl, rfl, rfl, rfl, rfl, rfl, rfl, rfl, rfl, rfl, rfl, rfl, rfl, rfl, rfl, rfl, rfl, fun p => ?_, rfl, rfl,
      rfl, fun i => ?_, fun p i => ?_, fun p => ?_, rfl, rfl, rfl, rfl, rfl, rfl, rfl, rfl, rfl, rfl, rfl, rfl, rfl, rfl, rfl, rfl,
      rfl, rfl, rfl, rfl, rfl⟩
    · fin_cases p <;> rfl
    · fin_cases i <;> rfl
    · revert p i; decide
    · revert p; decide

/-! ### Station-level resets -/

theorem resetBlocks_port (st : Station) (su : Setup) (s : State) (p : PortId) :
    (resetBlocks st su s).port p = Port.fresh (s.port p).front :=
  State.mapPorts_port s (fun _ pt => Port.fresh pt.front) p

/-- Every reset leaves the blocks as the tables say. -/
theorem blocksReset (st : Station) (su : Setup) (s : State) : BlocksReset s (resetBlocks st su s) :=
  ⟨resetBlocks_port st su s, rfl, rfl, rfl, rfl, fun ch => reset_chan ch, rfl, rfl, rfl, rfl, rfl, rfl, rfl, rfl, rfl, rfl, rfl⟩

/-- A reset that keeps calibration, but for one taken in CALIBRATING. -/
theorem stationRestarts (n : StationNo) (g : Geometry) (cause : StartCause) (st : Station) :
    StationRestarts cause st (resetStation n g cause st) := by
  refine ⟨rfl, rfl, rfl, rfl, rfl, rfl, rfl, rfl, ?_⟩
  simp only [resetStation]
  split
  · exact ⟨rfl, rfl⟩
  · exact ⟨rfl, rfl⟩

/-- Settles O12: each reset builds the state from fresh blocks. -/
theorem stationLevelResetsLeaveTheirColumns : Obligations.StationLevelResetsLeaveTheirColumns := by
  refine ⟨fun straps s => ⟨_, rfl, blocksReset _ _ s, rfl, rfl⟩,
    fun straps s => ⟨_, rfl, blocksReset _ _ s, rfl, rfl, rfl, stationRestarts _ _ _ _⟩, fun via port s hr hv => ?_⟩
  have hf : firstFailure via.broadcast ([9, 1, port] ++ via.extra) s.station = none := by
    simp [firstFailure, byteAt, kindListed, bytesNeeded, destinationOk, hv, phaseRefusal, codedOk, gradeOk, portOk, portOperand, pageOk]
  refine ⟨stationReset (frameEnded s), ?_, blocksReset _ _ (frameEnded s), rfl, rfl, rfl, stationRestarts _ _ _ _⟩
  exact congrArg Host.Outcome.next (takeRequest_served hr _ _ serveResetStation hf)

/-! ### The clock -/

/-- What is due and the rows that say when, one for one. -/
def Matches (rows : List (Prop × Instr)) (dues : List (Bool × Instr)) : Prop :=
  List.Forall₂ (fun r d => (r.1 ↔ d.1 = true) ∧ r.2 = d.2) rows dues

theorem Matches.append {r r' : List (Prop × Instr)} {d d' : List (Bool × Instr)} (h : Matches r d) (h' : Matches r' d') :
    Matches (r ++ r') (d ++ d') := List.rel_append h h'

theorem Matches.flatMap {α : Type} (l : List α) {f : α → List (Prop × Instr)} {g : α → List (Bool × Instr)}
    (h : ∀ x, Matches (f x) (g x)) : Matches (l.flatMap f) (l.flatMap g) := by
  induction l with
  | nil => exact .nil
  | cons x xs ih => exact (h x).append ih

/-- The first of the due events is the first row that holds. -/
theorem Matches.firstDue {rows : List (Prop × Instr)} {dues : List (Bool × Instr)} (h : Matches rows dues) (c : Instr) :
    firstDue dues = some c ↔ ∃ before condition after, rows = before ++ (condition, c) :: after ∧ condition ∧ ∀ r ∈ before, ¬r.1 := by
  induction h with
  | nil => simp [Machine.firstDue]
  | @cons r d rs ds hrd _ ih =>
    obtain ⟨h1, h2⟩ := hrd
    obtain ⟨cond, instr⟩ := r
    obtain ⟨b, i⟩ := d
    simp only at h1 h2
    subst h2
    cases b with
    | true =>
      have hc : cond := h1.2 rfl
      simp only [Machine.firstDue, if_true, Option.some.injEq]
      constructor
      · rintro rfl; exact ⟨[], cond, rs, rfl, hc, by simp⟩
      · rintro ⟨before, condition, after, he, -, hn⟩
        cases before with
        | nil => simp only [List.nil_append, List.cons.injEq, Prod.mk.injEq] at he; exact he.1.2
        | cons x xs =>
          simp only [List.cons_append, List.cons.injEq] at he
          exact absurd hc (by rw [← he.1] at hn; exact hn _ (List.mem_cons_self ..))
    | false =>
      have hc : ¬cond := fun x => Bool.noConfusion (h1.1 x)
      simp only [Machine.firstDue, Bool.false_eq_true, if_false, ih]
      constructor
      · rintro ⟨before, condition, after, he, hcond, hn⟩
        refine ⟨(cond, instr) :: before, condition, after, by rw [he]; rfl, hcond, fun x hx => ?_⟩
        rcases List.mem_cons.1 hx with rfl | hx
        · exact hc
        · exact hn x hx
      · rintro ⟨before, condition, after, he, hcond, hn⟩
        cases before with
        | nil =>
          simp only [List.nil_append, List.cons.injEq, Prod.mk.injEq] at he
          exact absurd (he.1.1 ▸ hcond) hc
        | cons x xs =>
          simp only [List.cons_append, List.cons.injEq] at he
          exact ⟨xs, condition, after, he.2, hcond, fun y hy => hn y (List.mem_cons_of_mem _ hy)⟩

theorem Matches.none {rows : List (Prop × Instr)} {dues : List (Bool × Instr)} (h : Matches rows dues) :
    Machine.firstDue dues = none ↔ ∀ r ∈ rows, ¬r.1 := by
  induction h with
  | nil => simp [Machine.firstDue]
  | @cons r d rs ds hrd _ ih =>
    obtain ⟨b, i⟩ := d
    cases b with
    | true => simpa [Machine.firstDue] using fun hx => absurd (hrd.1.2 rfl) hx
    | false =>
      have hc : ¬r.1 := fun x => Bool.noConfusion (hrd.1.1 x)
      simp [Machine.firstDue, ih, hc]

theorem expired_iff (k : Timer) : k.expired = true ↔ Elapsed k := by simp [Timer.expired, Elapsed]

theorem portRows_match (p : PortId) (pt : Port) : Matches (portRows p pt) (portDue p pt) := by
  simp [Matches, portRows, portDue, Port.isIn, Port.exchanging, Port.listeningIn, Port.counting, expired_iff, and_assoc]

theorem planned_of_meas {c : Channel} {m : Measurement} (h : c.meas = some m) : c.planned = m.planned := by
  simp [Channel.planned, h]

theorem channelRows_match (s : State) (ch : ChannelId) : Matches (channelRows s ch) (channelDue s ch) := by
  have hh : ((s.chan ch).phase = .claiming ∧ ∃ l, (s.chan ch).claim = some l ∧ l.state = .holdoff ∧ Elapsed l.holdoff) ↔
      (holdoffClaim (s.chan ch)).any (fun l => l.holdoff.expired) = true := by
    simp only [Option.any_eq_true, expired_iff]
    constructor
    · rintro ⟨h1, l, h2, h3, h4⟩
      exact ⟨l, by simp [holdoffClaim, h1, h2, h3], h4⟩
    · rintro ⟨l, hl, h4⟩
      obtain ⟨h1, h2, h3⟩ := not_queued_of_holdoff hl
      exact ⟨h1, l, h2, h3, h4⟩
  have hy : (∃ l, (s.chan ch).claim = some l ∧ Elapsed l.yieldTimer) ↔
      (s.chan ch).claim.any (fun l => l.yieldTimer.expired) = true := by
    simp [Option.any_eq_true, expired_iff]
  have hb : ((s.chan ch).phase = .bursting ∧ (s.chan ch).stage = .recovery ∧
      (∃ m, (s.chan ch).meas = some m ∧ m.planned ≤ (s.chan ch).launched) ∧ Elapsed (s.chan ch).shot) ↔
      ((s.chan ch).lastRecovery && (s.chan ch).shot.expired && (s.chan ch).meas.isSome) = true := by
    simp only [Channel.lastRecovery, Bool.and_eq_true, beq_iff_eq, decide_eq_true_eq, expired_iff]
    cases hm : (s.chan ch).meas with
    | none => simp
    | some m => simp [planned_of_meas hm, and_assoc]
  have hl : ((s.chan ch).phase = .bursting ∧ (s.chan ch).stage = .gap ∧ 4 ≤ (s.chan ch).shot.elapsed ∧ (s.chan ch).meas ≠ none ∧
      heldEntry ch s ≠ none) ↔ ((s.chan ch).beforeLaunch && (s.chan ch).stage == .gap && decide (4 ≤ (s.chan ch).shot.elapsed) &&
      (s.chan ch).meas.isSome && (heldEntry ch s).isSome) = true := by
    simp only [Channel.beforeLaunch, Bool.and_eq_true, Bool.or_eq_true, beq_iff_eq, decide_eq_true_eq, Option.isSome_iff_ne_none]
    tauto
  simp only [Matches, channelRows, channelDue, List.forall₂_cons, List.forall₂_nil_left_iff, and_true, hh, hy, hb, hl,
    Bool.and_eq_true, beq_iff_eq, expired_iff, Option.isSome_iff_ne_none, ne_eq]

theorem viewRows_match (now : Nat) (v : ViewEntry) : Matches (viewRows now v) (entryDue now v) := by
  simp [Matches, viewRows, entryDue]

theorem stationRows_match (s : State) : Matches (stationRows s) (stationDue s) := by
  simp [Matches, stationRows, stationDue, expired_iff, mayStart, and_assoc]

theorem canTake_iff (s : State) : canTake s = true ↔ FrameReady s := by
  simp [canTake, FrameReady, and_assoc]

/-- A bit that the list holds. -/
theorem getD_iff (bits : List Bool) (i : Nat) (d b : Bool) (h : d ≠ b) : bits.getD i d = b ↔ bits[i]? = some b := by
  rw [List.getD_eq_getElem?_getD]
  cases hb : bits[i]? with
  | none => simp [h]
  | some x => simp

theorem readConflict_iff (o : OnLine) (l : Line) : readConflict o l = true ↔
    l.heard.getLast? = some false ∧ o.bits[l.heard.length - 1]? = some true := by
  simp only [readConflict, Bool.and_eq_true, beq_iff_eq, getD_iff _ _ false true (by decide)]

/-- A conflict at the bit read last, in a range of positions. -/
theorem conflictIn_iff (first last : Nat) (o : OnLine) (l : Line) :
    (readConflict o l && conflictIn first last o l) = true ↔
      l.heard.getLast? = some false ∧ o.bits[l.heard.length - 1]? = some true ∧ first ≤ l.heard.length ∧ l.heard.length ≤ last := by
  rw [Bool.and_eq_true]
  constructor
  · rintro ⟨h1, h2⟩
    obtain ⟨a, b⟩ := (readConflict_iff o l).1 h1
    simp only [conflictIn, conflictPosition, if_pos h1, Bool.and_eq_true, decide_eq_true_eq] at h2
    exact ⟨a, b, h2.1.2, h2.2⟩
  · rintro ⟨a, b, c, d⟩
    have h1 := (readConflict_iff o l).2 ⟨a, b⟩
    refine ⟨h1, ?_⟩
    simp only [conflictIn, conflictPosition, if_pos h1, Bool.and_eq_true, decide_eq_true_eq]
    exact ⟨⟨(getD_iff _ _ false true (by decide)).2 b, c⟩, d⟩

theorem checkEnd_eq (bits : List Bool) : checkEnd bits = 27 + 9 * payloadLength bits := by
  simp only [checkEnd, bodyEnd]; omega

theorem ownFrameRows_match (o : OnLine) (l : Line) : Matches (ownFrameRows o l) (ownFrameDue o l) := by
  have h1 := conflictIn_iff 2 9 o l
  have h2 := conflictIn_iff 10 (checkEnd o.bits) o l
  refine Matches.append ?_ ?_
  · refine .cons ⟨h1.symm, rfl⟩ (.cons ⟨Iff.trans ?_ h2.symm, rfl⟩ .nil)
    rw [checkEnd_eq]
  · have hd : (if l.heard.getLast? = some false then Departure.voided else .sent) =
        if (l.heard.getLast? == some false) = true then .voided else .sent := by simp
    rw [hd]
    cases departureCommand o.frame (if (l.heard.getLast? == some false) = true then .voided else .sent) with
    | some c => exact .cons ⟨decide_eq_true_iff.symm, rfl⟩ .nil
    | none => exact .nil

theorem lineRows_match (s : State) : Matches (lineRows s) (lineDue s) := by
  refine Matches.append (.cons ⟨by simp, rfl⟩ (.cons ⟨by simp, rfl⟩ (.cons ⟨?_, rfl⟩ (.cons ⟨?_, ?_⟩ .nil)))) ?_
  · have hc : checkHeard s.line = true ↔ 18 ≤ s.line.heard.length ∧ s.line.heard.length = 27 + 9 * payloadLength s.line.heard := by
      simp [checkHeard, checkEnd_eq]
    simp only [objectionDue, marked, Bool.and_eq_true, canTake_iff, FrameReady, hc, Option.isNone_iff_eq_none, beq_iff_eq,
      Bool.not_eq_true', Bool.or_eq_true, bne_iff_ne]
    tauto
  · have he : endPosition s.line.heard = 29 + 9 * payloadLength s.line.heard := by simp only [endPosition, bodyEnd]; omega
    simp [wholeHeard, he, canTake_iff]
  · have hs : slotDominant s.line.heard = true ↔ s.line.heard[27 + 9 * payloadLength s.line.heard]? = some false := by
      rw [slotDominant, Bool.not_eq_true', show slotPosition s.line.heard - 1 = 27 + 9 * payloadLength s.line.heard by
        simp only [slotPosition, bodyEnd]; omega]
      exact getD_iff _ _ true false (by decide)
    exact if_congr hs.symm rfl rfl
  · cases s.line.onLine with
    | none => exact .nil
    | some o => exact ownFrameRows_match o s.line

theorem dueRows_match (s : State) : Matches (dueRows s) (allDue s) :=
  (((((lineRows_match s).append (stationRows_match s)).append (.flatMap _ (viewRows_match s.now))).append
    (channelRows_match s 0)).append (channelRows_match s 1)).append (.flatMap _ (fun p => portRows_match p (s.port p)))

/-- What a µs leaves of station, sweep, budget and line. -/
theorem advance_rest (s : State) : advance s = { s with
    ports := (advance s).ports, channels := (advance s).channels, wire := s.wire.tail, now := s.now + 1
    station := { s.station with
      listen := s.station.listen.tick, calibrating := s.station.calibrating.tick, window := s.station.window.tick }
    sweep := { s.sweep with period := s.sweep.period.tick }
    budget := { s.budget with window := s.budget.window.tick, pace := s.budget.pace.tick }
    line := { readBit (drivenLevel s.line && s.wire.headD true) s.line with
      listenIn := s.line.listenIn.tick
      onLine := s.line.onLine.map (fun o => { o with position := min o.bits.length (o.position + 1) }) } } := by
  have hl : tickLine (lineLevel s) s.line = { readBit (drivenLevel s.line && s.wire.headD true) s.line with
      listenIn := s.line.listenIn.tick
      onLine := s.line.onLine.map (fun o => { o with position := min o.bits.length (o.position + 1) }) } := by
    obtain ⟨-, h2, h3, -⟩ := readBit_list (lineLevel s) s.line
    simp only [tickLine, h2, h3]; rfl
  rw [← hl]; rfl

/-- What a µs leaves of a port. -/
theorem advance_ports (s : State) (p : PortId) : (advance s).port p = { s.port p with
    front := ((advance s).port p).front
    train := { (s.port p).train with errorFree := (s.port p).train.errorFree.tick }
    timers := ⟨(s.port p).timers.wake.tick, (s.port p).timers.settle.tick, (s.port p).timers.offering.tick,
      (s.port p).timers.pageRepeat.tick, (s.port p).timers.alternation.tick, (s.port p).timers.legacy.tick,
      (s.port p).timers.resolving.tick, (s.port p).timers.identify.tick, (s.port p).timers.patternRepeat.tick,
      (s.port p).timers.probeRepeat.tick, (s.port p).timers.qualifyA.tick, (s.port p).timers.qualifyB.tick,
      (s.port p).timers.qualifying.tick, (s.port p).timers.backoff.tick⟩
    watch := { (s.port p).watch with
      window := (s.port p).watch.window.tick, silence := (s.port p).watch.silence.tick
      dropSettle := (s.port p).watch.dropSettle.tick } } ∧
    (s.station.phase ≠ .calibrating → ((advance s).port p).front = (s.port p).front) := by
  rw [advance_port]
  refine ⟨rfl, fun h => ?_⟩
  have : (tickStation s.station).phase ≠ .calibrating := h
  simp only [tickPortAt, calibrateTick, if_neg this]

/-- A recovery that ends with this µs before the last shot. -/
def gapBegins (c : Channel) : Bool :=
  let k : Channel := { c with settle := c.settle.tick, shot := c.shot.tick, claim := c.claim.map tickClaim }
  k.beforeLaunch && k.stage == .recovery && k.shot.expired

theorem tick_expired_iff (k : Timer) : k.tick.expired = true ↔ k.running = true ∧ k.limit ≤ k.elapsed + 1 := by
  simp only [Timer.expired, Timer.tick]
  split
  · next h => simp [h.1]
  · next h =>
    simp only [Bool.and_eq_true, decide_eq_true_eq]
    constructor
    · rintro ⟨a, b⟩; exact ⟨a, by omega⟩
    · rintro ⟨a, b⟩
      exact ⟨a, by by_contra hc; exact h ⟨a, by omega⟩⟩

theorem gapBegins_iff (c : Channel) : gapBegins c = true ↔ c.phase = .bursting ∧ c.stage = .recovery ∧
    (∃ m, c.meas = some m ∧ c.launched < m.planned) ∧ c.shot.running = true ∧ c.shot.limit ≤ c.shot.elapsed + 1 := by
  have hp : (∃ m, c.meas = some m ∧ c.launched < m.planned) ↔ c.launched < c.planned := by
    cases hm : c.meas with
    | none => simp [Channel.planned, hm]
    | some m => simp [planned_of_meas hm]
  rw [hp]
  simp only [gapBegins, Channel.beforeLaunch, Bool.and_eq_true, Bool.or_eq_true, beq_iff_eq, decide_eq_true_eq, tick_expired_iff]
  constructor
  · rintro ⟨⟨⟨a, b⟩, d⟩, e⟩
    refine ⟨a, d, ?_, e⟩
    rcases b with b | b
    · rw [d] at b; cases b
    · exact b.2
  · rintro ⟨a, d, b, e⟩
    exact ⟨⟨⟨a, Or.inr ⟨d, b⟩⟩, d⟩, e⟩

/-- What a µs leaves of a channel. -/
theorem advance_channels (s : State) (ch : ChannelId) : ∃ gap : Bool,
    (gap = true ↔ (s.chan ch).phase = .bursting ∧ (s.chan ch).stage = .recovery ∧
      (∃ m, (s.chan ch).meas = some m ∧ (s.chan ch).launched < m.planned) ∧ (s.chan ch).shot.running = true ∧
      (s.chan ch).shot.limit ≤ (s.chan ch).shot.elapsed + 1) ∧
    (advance s).chan ch = { s.chan ch with
      settle := (s.chan ch).settle.tick
      shot := if gap then ⟨true, 0, 16⟩ else (s.chan ch).shot.tick
      stage := if gap then .gap else (s.chan ch).stage
      claim := (s.chan ch).claim.map (fun l =>
        { l with
          holdoff := if l.state = .holdoff ∧ l.holdoff.running = false then ⟨true, 0, 500⟩ else l.holdoff.tick
          yieldTimer := l.yieldTimer.tick }) } := by
  refine ⟨gapBegins (s.chan ch), gapBegins_iff _, ?_⟩
  rw [advance_chan, tickChannel]
  cases hg : gapBegins (s.chan ch) with
  | true => exact if_pos hg
  | false => exact if_neg (fun hx => Bool.noConfusion (hg.symm.trans hx))

/-- Settles O2: the due events stand one for one in the rows' order, and a µs changes what each part's tick says. -/
theorem idleStepIsTheDueEventOrOneMicrosecond : Obligations.IdleStepIsTheDueEventOrOneMicrosecond := by
  refine ⟨fun s hs => ⟨fun c hc => ?_, fun hn => ⟨advance s, ?_, ?_, fun p => ?_, fun ch => ?_⟩⟩,
    fun s c => (dueRows_match s).firstDue c, fun s => (dueRows_match s).none, fun k => ⟨fun h1 h2 => ?_, fun h => ?_⟩⟩
  · simp [step, hs, idleStep, hc]
  · simp [step, hs, idleStep, hn]
  · exact advance_rest s
  · exact advance_ports s p
  · exact advance_channels s ch
  · simp [Timer.tick, h1, h2]
  · simp only [Timer.tick]
    rw [if_neg]
    rintro ⟨a, b⟩
    rcases h with h | h
    · rw [h] at a; cases a
    · omega

end Sys2Proof.Machine
end

section
/-! PROOFS of O13 to O17: energy at a port, the quality watch, shadows and the drop settle. -/

namespace Sys2Proof.Machine

open Sys2Proof

/-! ### Energy -/

theorem loseEnergy_dormant {pt : Port} (h : pt.train.state = .dormant) :
    loseEnergy pt = { pt with front.energy := false, timers.wake := ⟨false, 0, 0⟩ } := by
  simp [loseEnergy, Port.isIn, h, Timer.off]

theorem loseEnergy_awake {pt : Port} (h : pt.train.state ≠ .dormant) : loseEnergy pt = { pt with front.energy := false } := by
  simp [loseEnergy, Port.isIn, h]

/-- Where energy goes away: the port notes it, and an UP port drops or starts its silence timer (R3, R50, R52). -/
theorem exec_energyDisappears {p : PortId} {s : State} (h : (s.port p).front.energy = true) :
    exec (.energyDisappears p) s = .next (
      if (s.port p).isIn .up then
        if (energyStatus (s.criteria p)).counts then qualityDrop p .energyLoss (s.modPort p loseEnergy)
        else s.modPort p (fun pt => { loseEnergy pt with watch.silence := Timer.start silenceTime })
      else s.modPort p loseEnergy) := by
  refine congrArg Host.Outcome.next ((onPort_pos h).trans ?_)
  simp only [State.modPort_modPort]

theorem exec_energyAppears {p : PortId} {s : State} (b : Bool) (h : (s.port p).front.energy = false) :
    exec (.energyAppears p b) s = .next (s.modPort p (fun pt =>
      let pt' := { pt with front.energy := true }
      if pt.train.state = .dormant then
        if b then enterSettling s.setup.wakeSettle pt' else { pt' with timers.wake := Timer.start wakeTime }
      else if pt.train.state = .up then { pt' with watch.silence := Timer.off }
      else pt')) := by
  refine congrArg Host.Outcome.next ((onPort_pos (by simp [h])).trans (State.modPort_congr _ _ _ _ ?_))
  cases (s.port p).train.state <;> rfl

theorem energyStatus_counts (c : Criteria) : (energyStatus c).counts = c.energyLoss := by
  cases h : c.energyLoss <;> simp [energyStatus, plainStatus, CriterionStatus.counts, h]

/-- Settles O13: in each state the event is one change of the port. -/
theorem energyAtAPortStartsAndStopsItsTimers : Obligations.EnergyAtAPortStartsAndStopsItsTimers := by
  intro p s
  refine ⟨fun he hd => ?_, fun he hd => ?_, fun b he hu => ?_, fun b he hd hu => ?_, fun he hd => ?_, fun he hu hc => ?_,
    fun he hd hu => ?_, fun hd he hw => ?_⟩
  · rw [exec_energyAppears _ he]
    exact congrArg _ (State.modPort_congr _ _ _ _ (by simp [hd, Timer.start, wakeTime]))
  · refine ⟨_, exec_energyAppears _ he, .modPort s p _, ?_⟩
    simp only [State.modPort_port_self, hd, if_true]
    exact enterSettling_spec _ _
  · rw [exec_energyAppears _ he]
    exact congrArg _ (State.modPort_congr _ _ _ _ (by simp [hu, Timer.off]))
  · rw [exec_energyAppears _ he]
    exact congrArg _ (State.modPort_congr _ _ _ _ (by simp [hd, hu]))
  · rw [exec_energyDisappears he, if_neg (by simp [Port.isIn, hd])]
    exact congrArg _ (State.modPort_congr _ _ _ _ (loseEnergy_dormant hd))
  · rw [exec_energyDisappears he, if_pos (Port.isIn_iff.2 hu), energyStatus_counts, hc, if_neg Bool.false_ne_true]
    exact congrArg _ (State.modPort_congr _ _ _ _ (by simp [loseEnergy, Port.isIn, hu, Timer.start, silenceTime]))
  · rw [exec_energyDisappears he, if_neg (by simpa [Port.isIn] using hu)]
    exact congrArg _ (State.modPort_congr _ _ _ _ (loseEnergy_awake hd))
  · refine ⟨_, congrArg Host.Outcome.next (onPort_pos (by simp [Port.isIn, hd, he, hw])), .modPort s p _, ?_⟩
    simp only [State.modPort_port_self]
    exact enterSettling_spec _ _

/-! ### The quality watch -/

theorem symbolStatus_counts (c : Criteria) : (symbolStatus c).counts = c.symbolErrors := by
  cases h : c.symbolErrors <;> simp [symbolStatus, plainStatus, CriterionStatus.counts, h]

theorem idleStatus_counts (c : Criteria) : (idleStatus c).counts = c.idleErrors := by
  cases h : c.idleErrors <;> simp [idleStatus, plainStatus, CriterionStatus.counts, h]

/-- A margin dip counts where it is enabled and one of the two criteria that wake it is (R47). -/
theorem marginStatus_counts (c : Criteria) : (marginStatus c).counts = (c.marginDips && (c.symbolErrors || c.energyLoss)) := by
  cases h : c.marginDips <;> cases g : (c.symbolErrors || c.energyLoss) <;>
    simp [marginStatus, dormantStatus, criteriaDormant, CriterionStatus.counts, h, g]

/-- A loss of lock counts where it is enabled and one of the two criteria that wake it is (R47). -/
theorem lockStatus_counts (c : Criteria) : (lockStatus c).counts = (c.lockLoss && (c.symbolErrors || c.energyLoss)) := by
  cases h : c.lockLoss <;> cases g : (c.symbolErrors || c.energyLoss) <;>
    simp [lockStatus, dormantStatus, criteriaDormant, CriterionStatus.counts, h, g]

theorem Port.counting_iff {pt : Port} : pt.counting = true ↔ pt.train.state = .up ∧ pt.watch.condition = .counting := by
  simp [Port.counting, Port.isIn]

theorem disturbQualifying_of_up {p : PortId} {s : State} (h : (s.port p).train.state = .up) : disturbQualifying p s = s := by
  simp [disturbQualifying, Port.isIn, h]

theorem countEvent_below {p : PortId} {cause : DropCause} {now threshold : Nat} {store : Watch → Watch} {s : State}
    (h : now < threshold) :
    countEvent p cause now threshold store s = s.modPort p (fun pt => { pt with watch := store pt.watch }) := by
  simp [countEvent, Nat.not_le.2 h]

theorem countEvent_reached {p : PortId} {cause : DropCause} {now threshold : Nat} {store : Watch → Watch} {s : State}
    (h : threshold ≤ now) : countEvent p cause now threshold store s = qualityDrop p cause s := by
  simp [countEvent, h]

section
variable {p : PortId} {s : State}

/-- What each criterion's event is at an UP port in COUNTING where it counts (R49). -/
theorem exec_symbolError_counts (hc : (s.port p).counting = true) (h : (s.criteria p).symbolErrors = true) :
    exec (.symbolError p) s = .next (countEvent p .symbolErrors ((s.port p).watch.symbol + 1) s.setup.thresholdE
      (fun v => { v with symbol := (s.port p).watch.symbol + 1 }) s) :=
  congrArg Host.Outcome.next (if_pos (by rw [hc, symbolStatus_counts, h]; rfl))

theorem exec_idleError_counts (hc : (s.port p).counting = true) (h : (s.criteria p).idleErrors = true) :
    exec (.idleError p) s = .next (countEvent p .idleErrors ((s.port p).watch.idle + 1) s.setup.thresholdI
      (fun v => { v with idle := (s.port p).watch.idle + 1 }) s) :=
  congrArg Host.Outcome.next (if_pos (by rw [hc, idleStatus_counts, h]; rfl))

theorem exec_marginDip_counts (hc : (s.port p).counting = true) (h : (s.criteria p).marginDips = true)
    (hw : (s.criteria p).symbolErrors = true ∨ (s.criteria p).energyLoss = true) :
    exec (.marginDip p) s = .next (countEvent p .marginDips ((s.port p).watch.margin + 1) s.setup.thresholdM
      (fun v => { v with margin := (s.port p).watch.margin + 1 }) s) :=
  congrArg Host.Outcome.next (if_pos (by rw [hc, marginStatus_counts, h, Bool.or_eq_true_iff.2 hw]; rfl))

/-- What the events are elsewhere (R15, R49, R54). -/
theorem exec_symbolError_else (h : ((s.port p).counting && (s.criteria p).symbolErrors) = false) :
    exec (.symbolError p) s = .next (disturbQualifying p s) :=
  congrArg Host.Outcome.next (if_neg (by rw [symbolStatus_counts, h]; exact Bool.false_ne_true))

theorem exec_idleError_else (h : ((s.port p).counting && (s.criteria p).idleErrors) = false) :
    exec (.idleError p) s = .next (disturbQualifying p s) :=
  congrArg Host.Outcome.next (if_neg (by rw [idleStatus_counts, h]; exact Bool.false_ne_true))

theorem exec_marginDip_else
    (h : ((s.port p).counting && ((s.criteria p).marginDips && ((s.criteria p).symbolErrors || (s.criteria p).energyLoss))) = false) :
    exec (.marginDip p) s = .next s :=
  congrArg Host.Outcome.next (if_neg (by rw [marginStatus_counts, h]; exact Bool.false_ne_true))

theorem exec_lossOfLock_else
    (h : ((s.port p).isIn .up && ((s.criteria p).lockLoss && ((s.criteria p).symbolErrors || (s.criteria p).energyLoss))) = false) :
    exec (.lossOfLock p) s = .next (disturbQualifying p s) :=
  congrArg Host.Outcome.next (if_neg (by rw [lockStatus_counts, h]; exact Bool.false_ne_true))

end

/-- Settles O14: each event adds its one count, is discarded, or the window starts again. -/
theorem watchEventsCountUntilTheWindowEnds : Obligations.WatchEventsCountUntilTheWindowEnds := by
  refine ⟨⟨fun p s hu hc => ?_, fun p s hu => ?_⟩, fun p s hu hc => ?_⟩
  · have hcnt := Port.counting_iff.2 ⟨hu, hc⟩
    refine ⟨fun h hl => ?_, fun h hl => ?_, fun h hw hl => ?_⟩
    · rw [exec_symbolError_counts hcnt h, countEvent_below hl]
    · rw [exec_idleError_counts hcnt h, countEvent_below hl]
    · rw [exec_marginDip_counts hcnt h hw, countEvent_below hl]
  · have hcnt : (s.port p).counting = decide ((s.port p).watch.condition = .counting) := by
      simp [Port.counting, Port.isIn, hu, beq_eq_decide]
    refine ⟨fun h => ?_, fun h => ?_, fun h => ?_⟩
    · rw [exec_symbolError_else (by rw [hcnt]; rcases h with h | h <;> simp [h]), disturbQualifying_of_up hu]
    · rw [exec_idleError_else (by rw [hcnt]; rcases h with h | h <;> simp [h]), disturbQualifying_of_up hu]
    · exact exec_marginDip_else (by rw [hcnt]; rcases h with h | h | h <;> simp [h])
  · exact congrArg Host.Outcome.next (onPort_pos (Port.counting_iff.2 ⟨hu, hc⟩))

/-- Settles O15: each criterion's event is a quality drop of the port. -/
theorem qualityCriteriaTakeTheLinkDown : Obligations.QualityCriteriaTakeTheLinkDown := by
  intro p s hu
  refine ⟨fun hc h hl => ?_, fun hc h hl => ?_, fun hc h hw hl => ?_, fun he h => ?_, fun hr => ?_, fun h hw => ?_, fun h => ?_⟩
  · refine ⟨_, ?_, qualityDrop_spec p _ s hu⟩
    rw [exec_symbolError_counts (Port.counting_iff.2 ⟨hu, hc⟩) h, countEvent_reached hl]
  · refine ⟨_, ?_, qualityDrop_spec p _ s hu⟩
    rw [exec_idleError_counts (Port.counting_iff.2 ⟨hu, hc⟩) h, countEvent_reached hl]
  · refine ⟨_, ?_, qualityDrop_spec p _ s hu⟩
    rw [exec_marginDip_counts (Port.counting_iff.2 ⟨hu, hc⟩) h hw, countEvent_reached hl]
  · refine ⟨_, ?_, qualityDrop_spec p _ _ (by simpa using hu)⟩
    rw [exec_energyDisappears he, if_pos (Port.isIn_iff.2 hu), energyStatus_counts, h, if_pos rfl,
      State.modPort_congr s p loseEnergy (fun pt => { pt with front.energy := false }) (loseEnergy_awake (by simp [hu]))]
  · exact ⟨_, congrArg Host.Outcome.next (onPort_pos (by simp [Port.isIn, hu, hr])), qualityDrop_spec p _ s hu⟩
  · refine ⟨_, congrArg Host.Outcome.next (if_pos ?_), qualityDrop_spec p _ s hu⟩
    rw [Port.isIn_iff.2 hu, lockStatus_counts, h, Bool.or_eq_true_iff.2 hw]; rfl
  · rw [exec_lossOfLock_else (by rcases h with h | h <;> simp [h]), disturbQualifying_of_up hu]

/-! ### Shadows -/

theorem shadowed_iff (s : State) (p : PortId) :
    shadowed s p = true ↔
      (∃ v ∈ s.view, v.target ≠ globalOf s.station.number p ∧
        conflicts s.station.geometry v.target (globalOf s.station.number p) = true) ∨
      ∃ ch l, (s.chan ch).claim = some l ∧ (l.state = .holdoff ∨ l.state = .waitYield ∨ l.state = .active) ∧
        l.target ≠ globalOf s.station.number p ∧
        conflicts s.station.geometry l.target (globalOf s.station.number p) = true := by
  have hc : ∀ ch, claimShadows s.station.geometry (globalOf s.station.number p) (s.chan ch) = true ↔
      ∃ l, (s.chan ch).claim = some l ∧ (l.state = .holdoff ∨ l.state = .waitYield ∨ l.state = .active) ∧
        l.target ≠ globalOf s.station.number p ∧
        conflicts s.station.geometry l.target (globalOf s.station.number p) = true := fun ch => by
    cases h : (s.chan ch).claim with
    | none => simp [claimShadows, h]
    | some l => simp [claimShadows, h, conflicts, and_assoc, or_assoc]
  have h2 : (∃ ch l, (s.chan ch).claim = some l ∧ (l.state = .holdoff ∨ l.state = .waitYield ∨ l.state = .active) ∧
        l.target ≠ globalOf s.station.number p ∧
        conflicts s.station.geometry l.target (globalOf s.station.number p) = true) ↔
      claimShadows s.station.geometry (globalOf s.station.number p) (s.chan 0) = true ∨
        claimShadows s.station.geometry (globalOf s.station.number p) (s.chan 1) = true := by
    simp only [← hc]; exact Fin.exists_fin_two
  rw [h2]
  simp only [shadowed, Bool.or_eq_true, List.any_eq_true, Bool.and_eq_true, decide_eq_true_eq, or_assoc]
  rfl

theorem updateShadows_port (s : State) (p : PortId) :
    (updateShadows s).port p = shadowChange s.setup.window (shadowed s p) (s.port p) := by
  simp [updateShadows]

theorem shadowChange_same {n : Nat} {on : Bool} {pt : Port} (h : pt.train.shadowed = on) : shadowChange n on pt = pt := by
  simp [shadowChange, h]

/-- The watch of an UP port as a shadow starts or ends (R54). -/
theorem shadowChange_up {n : Nat} {on : Bool} {pt : Port} (h : pt.train.shadowed ≠ on) (hu : pt.train.state = .up)
    (hc : pt.watch.condition = (if on then .counting else .suspended)) :
    shadowChange n on pt = { pt with
      train := { pt.train with shadowed := on }
      watch := { pt.watch with
        condition := if on then .suspended else .counting
        window := if on then ⟨false, 0, 0⟩ else ⟨true, 0, n⟩
        symbol := 0, idle := 0, margin := 0 } } := by
  cases on <;> simp [shadowChange, h, shadowStart, shadowEnd, hu, hc, Timer.off, Timer.start]

/-- The error-free timer of a QUALIFYING port as a shadow starts or ends (R56). -/
theorem shadowChange_qualifying {n : Nat} {on : Bool} {pt : Port} (h : pt.train.shadowed ≠ on) (hq : pt.train.state = .qualifying) :
    shadowChange n on pt = { pt with
      train := { pt.train with shadowed := on, errorFree := { pt.train.errorFree with running := !on } } } := by
  cases on <;> simp [shadowChange, h, shadowStart, shadowEnd, hq, Timer.pause, Timer.resume]

theorem shadowChange_else {n : Nat} {on : Bool} {pt : Port} (h : pt.train.shadowed ≠ on) (hq : pt.train.state ≠ .qualifying)
    (hu : pt.train.state ≠ .up ∨ pt.watch.condition ≠ (if on then .counting else .suspended)) :
    shadowChange n on pt = { pt with train := { pt.train with shadowed := on } } := by
  cases on <;> cases hs : pt.train.state <;> cases hc : pt.watch.condition <;>
    simp_all [shadowChange, shadowStart, shadowEnd]

theorem disturbQualifying_of_qualifying {p : PortId} {s : State} (h : (s.port p).train.state = .qualifying) :
    disturbQualifying p s = if (s.port p).train.shadowed then s
      else s.modPort p (fun pt => { pt with train.errorFree := { pt.train.errorFree with elapsed := 0 } }) := by
  cases hs : (s.port p).train.shadowed <;> simp [disturbQualifying, Port.isIn, h, hs]; rfl

/-- Settles O16: the disturbances act on the error-free timer, and the ports follow the zones of the claims. -/
theorem disturbancesAndShadowsActOnWatchAndErrorFreeTimer : Obligations.DisturbancesAndShadowsActOnWatchAndErrorFreeTimer := by
  refine ⟨fun p s hq => ?_, fun s => ⟨rfl, fun p on hon => ?_⟩⟩
  · have hn : (s.port p).counting = false := by simp [Port.counting, Port.isIn, hq]
    have hi : (s.port p).isIn .up = false := by simp [Port.isIn, hq]
    refine ⟨fun c hc => ?_, exec_marginDip_else (by rw [hn]; rfl)⟩
    rw [← disturbQualifying_of_qualifying hq]
    simp only [List.mem_cons, List.not_mem_nil, or_false] at hc
    rcases hc with rfl | rfl | rfl
    · exact exec_symbolError_else (by rw [hn]; rfl)
    · exact exec_idleError_else (by rw [hn]; rfl)
    · exact exec_lossOfLock_else (by rw [hi]; rfl)
  · obtain rfl : shadowed s p = on := by rw [Bool.eq_iff_iff, hon, shadowed_iff]
    rw [updateShadows_port]
    exact ⟨shadowChange_same, fun h => ⟨shadowChange_up h, shadowChange_qualifying h, shadowChange_else h⟩⟩

end Sys2Proof.Machine
end

section
/-! PROOF of O17: what an automatic request does to the queue in each of its cases, and the drop settle that makes one. -/

namespace Sys2Proof.Machine

open Sys2Proof

/-! ### Automatic requests (R66, R67) -/

theorem waitingFor_none {p : PortId} {s : State} (h : ∀ e ∈ s.queue, e.target ≠ p) : waitingFor p s = none :=
  List.find?_eq_none.2 fun x hx => by simp [h x hx]

theorem heldFor_false {p : PortId} {s : State} (h : ∀ e ∈ s.queue, e.target ≠ p) : heldFor p s = false :=
  List.any_eq_false.2 fun x hx => by simp [h x hx]

theorem youngestBackground_eq_none {q : List Entry} :
    youngestBackground q = none ↔ ∀ x ∈ q, x.holder = none → x.priority ≠ .background := by
  induction q with
  | nil => simp [youngestBackground]
  | cons e es ih =>
    simp only [youngestBackground, List.forall_mem_cons, ← ih]
    split
    · next hw =>
      simp only [Entry.waiting, Bool.and_eq_true, Option.isNone_iff_eq_none, beq_iff_eq] at hw
      simp only [hw.1, hw.2, ne_eq, not_true_eq_false, imp_false, false_and, iff_false]
      split
      · simp
      · split <;> simp
    · next hw =>
      refine ⟨fun h => ⟨fun h1 h2 => hw (by simp [Entry.waiting, h1, h2]), h⟩, fun h => h.2⟩

theorem youngestBackground_spec {q : List Entry} {b : Entry} (h : youngestBackground q = some b) :
    b.holder = none ∧ b.priority = .background ∧
      ∀ x ∈ q, x.holder = none → x.priority = .background → x.stamp ≤ b.stamp := by
  induction q generalizing b with
  | nil => simp [youngestBackground] at h
  | cons e es ih =>
    simp only [youngestBackground] at h
    split at h
    · next hw =>
      simp only [Entry.waiting, Bool.and_eq_true, Option.isNone_iff_eq_none, beq_iff_eq] at hw
      split at h
      · next hn =>
        cases h
        refine ⟨hw.1, hw.2, fun x hx h1 h2 => ?_⟩
        rcases List.mem_cons.1 hx with rfl | hx
        · exact le_rfl
        · exact absurd h2 (youngestBackground_eq_none.1 hn x hx h1)
      · next f hf =>
        obtain ⟨k1, k2, k3⟩ := ih hf
        split at h <;> cases h
        · next hlt =>
          refine ⟨k1, k2, fun x hx h1 h2 => ?_⟩
          rcases List.mem_cons.1 hx with rfl | hx
          · omega
          · exact k3 x hx h1 h2
        · next hlt =>
          refine ⟨hw.1, hw.2, fun x hx h1 h2 => ?_⟩
          rcases List.mem_cons.1 hx with rfl | hx
          · exact le_rfl
          · have := k3 x hx h1 h2; omega
    · next hw =>
      obtain ⟨k1, k2, k3⟩ := ih h
      refine ⟨k1, k2, fun x hx h1 h2 => ?_⟩
      rcases List.mem_cons.1 hx with rfl | hx
      · simp [Entry.waiting, h1, h2] at hw
      · exact k3 x hx h1 h2

/-- The one entry with the greatest stamp of the waiting BACKGROUND entries is displaced (R67). -/
theorem youngestBackground_eq {q : List Entry} {b : Entry} (hb : b ∈ q) (hw : b.holder = none) (hp : b.priority = .background)
    (hy : ∀ x ∈ q, x.holder = none → x.priority = .background → x = b ∨ x.stamp < b.stamp) : youngestBackground q = some b := by
  cases h : youngestBackground q with
  | none => exact absurd hp (youngestBackground_eq_none.1 h b hb hw)
  | some c =>
    obtain ⟨h1, h2, h3⟩ := youngestBackground_spec h
    rcases hy c (youngestBackground_mem h) h1 h2 with rfl | hlt
    · rfl
    · exact absurd (h3 b hb hw hp) (Nat.not_le.2 hlt)

section
variable {p : PortId} {r : MeasureRequest} {s : State}

theorem autoRequest_merged {e : Entry} (h : waitingFor p s = some e) : autoRequest p r s = some (mergeInto p r e s) := by
  simp [autoRequest, h]

theorem autoRequest_accepted (h : ∀ e ∈ s.queue, e.target ≠ p) (hl : s.queue.length < 16) :
    autoRequest p r s = some (addEntry p r s) := by
  simp [autoRequest, waitingFor_none h, heldFor_false h, queueCapacity, hl]

theorem autoRequest_displacing {b : Entry} (h : ∀ e ∈ s.queue, e.target ≠ p) (hl : 16 ≤ s.queue.length) (hb : b ∈ s.queue)
    (hw : b.holder = none) (hp : b.priority = .background)
    (hy : ∀ x ∈ s.queue, x.holder = none → x.priority = .background → x = b ∨ x.stamp < b.stamp) :
    autoRequest p r s = some (sweepAfter (carriesTag s b) (addEntry p r (removeEntry b.target s))) := by
  simp [autoRequest, waitingFor_none h, heldFor_false h, queueCapacity, Nat.not_lt.2 hl, youngestBackground_eq hb hw hp hy]

theorem autoRequest_full (h : ∀ e ∈ s.queue, e.target ≠ p) (hl : 16 ≤ s.queue.length)
    (hn : ∀ e ∈ s.queue, e.holder = none → e.priority ≠ .background) : autoRequest p r s = none := by
  simp [autoRequest, waitingFor_none h, heldFor_false h, queueCapacity, Nat.not_lt.2 hl, youngestBackground_eq_none.2 hn]

theorem sweepAfter_carriesTag (b : Entry) (s w : State) (hw : w.sweep = s.sweep) :
    sweepAfter (carriesTag s b) w =
      if (b.tag = some s.sweep.tag ∧ s.sweep.fields.isSome) ∨ s.sweep.status = .waitingSpace then sweepAdvance w else w := by
  simp only [sweepAfter, carriesTag, hw]
  exact if_congr (by simp) rfl rfl

end

/-- An URGENT automatic request in the waiting entry (R65). -/
theorem mergeEntry_urgent (r : MeasureRequest) (e : Entry) (hi : r.intrusive = false) (ht : r.tag = none)
    (ho : originPriority r.origin = .urgent) :
    mergeEntry r e = { e with
      pairs := e.pairs.union r.pairs, reach := longerReach e.reach r.reach
      averaging := largerAveraging e.averaging r.averaging, priority := .urgent
      origin := if e.priority = .urgent then e.origin else r.origin } := by
  obtain ⟨a, b, c, d, e, pr, o, t, st, hd⟩ := e
  cases pr <;> simp [mergeEntry, hi, ht, ho, priorityRank]

theorem union_full (x : PairSet) : x.union PairSet.full = ⟨true, true, true, true⟩ := by
  simp [PairSet.union, PairSet.full, PerPair.zip, PerPair.const]

/-! ### The drop settle (R58) -/

/-- The drop settle is over at the port: its timer stands, and AWAIT has taken the place of SETTLE. -/
def settledToAwait (pt : Port) : Port :=
  { pt with watch.dropSettle := ⟨false, 0, 0⟩, train.holds := { pt.train.holds with settle := false, await := true } }

section
variable {p : PortId} {s : State}

theorem exec_dropSettleExpiry (h : (s.port p).watch.dropSettle.running = true) :
    exec (.dropSettleExpiry p) s = .next (afterDropSettle p (stopDropSettle p s)) :=
  congrArg Host.Outcome.next (onPort_pos h)

theorem autoRequest_stopDropSettle (r : MeasureRequest) :
    autoRequest p r (stopDropSettle p s) =
      (autoRequest p r s).map (fun t => t.modPort p (fun pt => { pt with watch.dropSettle := Timer.off })) :=
  autoRequest_modPort p r p _ s

/-- The DROP request stands in the queue of u: AWAIT takes the place of SETTLE. -/
theorem exec_dropSettleExpiry_queued {u : State} (h : (s.port p).watch.dropSettle.running = true)
    (hc : (s.port p).train.holds.channel = false) (hu : autoRequest p (dropRequest s) s = some u) :
    exec (.dropSettleExpiry p) s = .next (react (u.modPort p settledToAwait)) := by
  have hr : dropRequest (stopDropSettle p s) = dropRequest s := rfl
  have hc' : ((stopDropSettle p s).port p).train.holds.channel = false := by simpa [stopDropSettle] using hc
  rw [exec_dropSettleExpiry h, afterDropSettle, hc', hr, autoRequest_stopDropSettle, hu]
  simp only [Bool.false_eq_true, if_false, Option.map_some, State.modPort_modPort]
  rfl

/-- The queue has no room for the DROP request: QUEUE_FULL is noted, and SETTLE goes. -/
theorem exec_dropSettleExpiry_full (h : (s.port p).watch.dropSettle.running = true)
    (hc : (s.port p).train.holds.channel = false) (hu : autoRequest p (dropRequest s) s = none) :
    exec (.dropSettleExpiry p) s = .next (noteQueueFull p (unhold p dropSettleHold (stopDropSettle p s))) := by
  have hr : dropRequest (stopDropSettle p s) = dropRequest s := rfl
  have hc' : ((stopDropSettle p s).port p).train.holds.channel = false := by simpa [stopDropSettle] using hc
  rw [exec_dropSettleExpiry h, afterDropSettle, hc', hr, autoRequest_stopDropSettle, hu]
  rfl

end

/-- Settles O17: the five ends of the drop settle are the cases of the automatic request. -/
theorem dropSettleExpiryMakesTheDropRequest : Obligations.DropSettleExpiryMakesTheDropRequest := by
  intro p s hr
  refine ⟨fun hh hc => ?_, fun hc hn hl => ?_, fun e hc hw => ?_, fun b w hc hn hl hb hw hp hy hW => ?_,
    fun hh hs hn hl hb => ?_⟩
  · have hc' : ((stopDropSettle p s).port p).train.holds.channel = true := by simpa [stopDropSettle] using hc
    rw [exec_dropSettleExpiry hr, afterDropSettle, if_pos hc']
    simp only [stopDropSettle, unhold, State.modPort_modPort]
    refine congrArg _ (State.modPort_congr _ _ _ _ ?_)
    simp [unholdPort, dropSettleHold, hh, hc, HoldReasons.empty, Timer.off]
  · exact exec_dropSettleExpiry_queued hr hc (autoRequest_accepted hn hl)
  · have hm : mergeEntry (dropRequest s) e = _ := mergeEntry_urgent (dropRequest s) e rfl rfl rfl
    rw [exec_dropSettleExpiry_queued hr hc (autoRequest_merged hw), mergeInto, hm]
    simp only [dropRequest, union_full]
    rfl
  · rw [exec_dropSettleExpiry_queued hr hc (autoRequest_displacing hn hl hb hw hp hy),
      sweepAfter_carriesTag b s (addEntry p (dropRequest s) (removeEntry b.target s)) rfl, hW]
    split
    · rw [sweepAdvance_modPort]; rfl
    · rfl
  · refine ⟨_, exec_dropSettleExpiry_full hr (by rw [hs]) (autoRequest_full hn hl hb), ?_, ?_, ?_⟩
    · exact (((OnlyPortAndEvents.modPort p _ s).trans (.modPort p _ _)).trans (.modPort p _ _)).trans (.raise p _ _)
    · simp [noteQueueFull, unhold, stopDropSettle]
    · have hu : (unholdPort s.setup.wakeSettle dropSettleHold { s.port p with watch.dropSettle := Timer.off }) =
          portReEntry s.setup.wakeSettle
            { s.port p with watch.dropSettle := Timer.off, train.holds := ⟨false, false, false⟩ } := by
        simp [unholdPort, dropSettleHold, hh, hs, HoldReasons.empty]
      simp only [noteQueueFull, unhold, stopDropSettle, raise_port, State.modPort_port_self, State.modPort_setup, hu]
      cases he : (s.port p).front.energy <;>
        simp [portReEntry, he, enterSettling, enterDormant, settleInto, HoldReasons.empty]

end Sys2Proof.Machine
end

section
/-! PROOFS of O18 to O23: the settle and backoff expiries, the repetitions, the offer exchange and the limits of training. -/

namespace Sys2Proof.Machine

open Sys2Proof

/-! ### A failure after a change of the port -/

/-- Ports that a failed attempt leaves alike: the counts, the forced grade, the front end, the watch and the record store agree. -/
def SameForFailure (a b : Port) : Prop :=
  CountsKept a.train b.train ∧ b.train.forced = a.train.forced ∧ b.front = a.front ∧ b.watch = a.watch ∧ b.store = a.store

theorem AttemptFailed.of_prepared {p : PortId} {cause : FailureCause} {counted : Bool} {s t : State} {f : Port → Port}
    (hf : SameForFailure (s.port p) (f (s.port p))) (h : AttemptFailed p cause counted (s.modPort p f) t) :
    AttemptFailed p cause counted s t := by
  obtain ⟨⟨h1, h2, h3, h4, h5⟩, h6, h7, h8, h9⟩ := hf
  obtain ⟨honly, hrest⟩ := h
  simp only [State.modPort_port_self, State.modPort_summary, h1, h2, h3, h4, h5, h6, h7, h8, h9] at hrest
  exact ⟨(OnlyPortAndEvents.modPort p f s).trans honly, hrest⟩

/-- A change of the resolution results alone is none that a failure sees. -/
theorem SameForFailure.ofRes (a : Port) (r : Resolution) : SameForFailure a { a with res := r } :=
  ⟨⟨rfl, rfl, rfl, rfl, rfl⟩, rfl, rfl, rfl, rfl⟩

/-- A failure after one change of the port, read from another that a failure sees alike. -/
theorem failAttempt_prepared {p : PortId} {cause : FailureCause} {s : State} {f g : Port → Port}
    (hc : countsFourPair cause = false ∨ NoDownshiftTest p (s.modPort p g))
    (h : SameForFailure (f (s.port p)) (g (s.port p))) :
    AttemptFailed p cause (fourPairFailure cause (g (s.port p)).train) (s.modPort p f) (failAttempt p cause (s.modPort p g)) ∧
      ((failAttempt p cause (s.modPort p g)).port p).res = (g (s.port p)).res := by
  have hset : s.modPort p g = (s.modPort p f).modPort p (fun _ => g (s.port p)) := by
    rw [State.modPort_modPort]
    exact State.modPort_congr _ _ _ _ rfl
  obtain ⟨hf, hres⟩ := failAttempt_spec p cause (s.modPort p g) hc
  rw [State.modPort_port_self] at hf hres
  refine ⟨?_, hres⟩
  rw [hset] at hf ⊢
  exact hf.of_prepared (by rwa [State.modPort_port_self])

/-- The same for a cause that counts no four-pair failure. -/
theorem failAttempt_uncounted {p : PortId} {cause : FailureCause} {s : State} {f g : Port → Port}
    (hc : countsFourPair cause = false) (h : SameForFailure (f (s.port p)) (g (s.port p))) :
    AttemptFailed p cause false (s.modPort p f) (failAttempt p cause (s.modPort p g)) := by
  have hf := (failAttempt_prepared (.inl hc) h).1
  rwa [show fourPairFailure cause (g (s.port p)).train = false by simp [fourPairFailure, hc]] at hf

/-! ### Entering RESOLVING and OFFERING -/

theorem listenTimers_qualify (f : FrontEnd) :
    (listenTimers f).qualifyA = (if f.signalA = true ∧ f.signalB = false then ⟨true, 0, 2000⟩ else ⟨false, 0, 0⟩) ∧
      (listenTimers f).qualifyB = (if f.signalB = true ∧ f.signalA = false then ⟨true, 0, 2000⟩ else ⟨false, 0, 0⟩) := by
  cases ha : f.signalA <;> cases hb : f.signalB <;>
    simp [listenTimers, listenRuns, listenRun, ha, hb, TrainTimers.fresh, Timer.off, Timer.start, qualifyTime]

/-- An alternation interval lies in 50..90 ms (R8). -/
theorem alternation_range (n : Fin 41) : 50 ≤ 50 + n.val ∧ 50 + n.val ≤ 90 := by omega

/-- Settles O18: each expiry enters the one state that energy and forced grade choose. -/
theorem settleAndBackoffExpiriesChooseTheNextState : Obligations.SettleAndBackoffExpiriesChooseTheNextState := by
  refine ⟨fun p s hs => ?_, fun p s hb => ?_⟩
  · have hx : exec (.settleExpiry p) s = .next (if (s.port p).front.energy then
        match (s.port p).train.forced with
        | some g => s.modPort p (enterResolving g true)
        | none => enterOffering p s
      else s.modPort p enterDormant) := congrArg Host.Outcome.next (onPort_pos (Port.isIn_iff.2 hs))
    refine ⟨fun he => ?_, fun g he hf => ?_, fun he hf => ?_⟩
    · refine ⟨_, hx.trans (by simp only [he]; rfl), .modPort s p enterDormant, ?_⟩
      rw [State.modPort_port_self]
      exact enterDormant_spec _
    · obtain ⟨ha, hb⟩ := listenTimers_qualify (s.port p).front
      refine ⟨_, hx.trans (by simp only [he, hf]; rfl), .modPort s p (enterResolving g true), ?_⟩
      rw [State.modPort_port_self]
      exact ⟨rfl, rfl, rfl, rfl, ha, hb, rfl, rfl, rfl⟩
    · refine ⟨enterOffering p s, hx.trans (by simp only [he, hf]; rfl), ?_, ?_⟩
      · simp only [enterOffering]
        exact congrArg (fun u : State => { u with draws := s.draws + 2 }) (SameButPort.modPort s p _)
      · have hp : (enterOffering p s).port p =
            newAttempt (Config.seedDraw s.draws) (Config.alternationDraw (s.draws + 1)) (s.port p) :=
          State.modPort_port_self s p _
        rw [hp]
        obtain ⟨hlo, hhi⟩ := alternation_range (Config.alternationDraw (s.draws + 1))
        exact ⟨rfl, rfl, rfl, ⟨rfl, rfl, rfl, rfl, rfl⟩, rfl, ⟨rfl, rfl, rfl, rfl, rfl, rfl, rfl, rfl⟩, ⟨rfl, rfl, rfl, rfl, rfl⟩,
          ⟨rfl, rfl, rfl, rfl⟩, rfl, rfl, rfl, _, hlo, hhi, rfl⟩
  · refine ⟨_, congrArg Host.Outcome.next (onPort_pos (Port.isIn_iff.2 hb)), .modPort s p _, ?_⟩
    rw [reEnter, State.modPort_port_self]
    exact portReEntry_spec _ _

/-! ### What the repetitions launch -/

theorem Port.exchanging_iff {pt : Port} : pt.exchanging = true ↔ pt.train.state = .resolving ∧ pt.res.listening = false := by
  simp [Port.exchanging, Port.isIn]

theorem Port.listeningIn_iff {pt : Port} : pt.listeningIn = true ↔ pt.train.state = .resolving ∧ pt.res.listening = true := by
  simp [Port.listeningIn, Port.isIn]

theorem Port.gradePairs_of {pt : Port} {g : Grade} (h : pt.train.grade = some g) :
    pt.gradePairs = if g = .G3 ∨ g = .G4 then ⟨true, true, true, true⟩ else ⟨true, true, false, false⟩ := by
  simp only [Port.gradePairs, h]
  cases g <;> rfl

/-- Settles O19: each repetition launches its own signal. -/
theorem repetitionsLaunchTheirSignals : Obligations.RepetitionsLaunchTheirSignals := by
  intro p s
  refine ⟨fun ho => ?_, fun g hr hl hg => ?_, fun hr hl hp => ?_, fun x hr => ?_⟩
  · refine congrArg Host.Outcome.next ((onPort_pos (Port.isIn_iff.2 ho)).trans (State.modPort_congr _ _ _ _ ?_))
    cases (s.port p).train.crossover <;> simp [localPage, transmitPair, Timer.start, pagePeriod]
  · refine congrArg Host.Outcome.next ((onPort_pos (Port.exchanging_iff.2 ⟨hr, hl⟩)).trans (State.modPort_congr _ _ _ _ ?_))
    simp [sendPatterns, Port.gradePairs_of hg, Timer.start, patternPeriod]
  · cases hs : (s.port p).train.shadowed with
    | true => exact congrArg Host.Outcome.next (onPort_neg (by simp [hs]))
    | false => exact congrArg Host.Outcome.next (onPort_pos (by simp [Port.exchanging_iff.2 ⟨hr, hl⟩, hp, hs]))
  · exact congrArg Host.Outcome.next (onPort_pos (Port.isIn_iff.2 hr))

/-! ### Alternation and legacy detection -/

theorem exec_g2IdleStreamChange (p : PortId) (b : Bool) (s : State) :
    exec (.g2IdleStreamChange p b) s = .next (
      if (s.port p).front.g2Stream = b then s
      else s.modPort p (fun pt => { pt with
        front.g2Stream := b
        timers := if pt.isIn .offering && !pt.train.pageHeard then streamTimers b pt.timers else pt.timers })) := by
  refine congrArg Host.Outcome.next ?_
  by_cases h : (s.port p).front.g2Stream = b
  · rw [if_pos h]; exact onPort_neg (by simp [h])
  · rw [if_neg h]; exact onPort_pos (by simpa using h)

/-- Settles O20: alternation, freeze and resume are changes of the port's timers, and legacy detection resolves or fails. -/
theorem alternationAndLegacyDetection : Obligations.AlternationAndLegacyDetection := by
  refine ⟨fun p s ho hh => ⟨fun ha => ?_, fun hg => ?_, fun hg => ?_⟩, fun p b s h => ?_, fun p s ho hh hl => ⟨fun hg => ?_, fun hg => ?_⟩⟩
  · obtain ⟨hlo, hhi⟩ := alternation_range (Config.alternationDraw s.draws)
    refine ⟨_, hlo, hhi, congrArg Host.Outcome.next ((onPort_pos (by simp [Port.isIn, ho, hh, ha])).trans ?_)⟩
    refine congrArg (fun u : State => { u with draws := s.draws + 1 }) (State.modPort_congr _ _ _ _ ?_)
    cases (s.port p).train.crossover <;> simp [Timer.start]
  · rw [exec_g2IdleStreamChange, if_neg (by simp [hg])]
    refine congrArg _ (State.modPort_congr _ _ _ _ ?_)
    simp [Port.isIn, ho, hh, streamTimers, Timer.start, legacyTime, Timer.pause]
  · rw [exec_g2IdleStreamChange, if_neg (by simp [hg])]
    refine congrArg _ (State.modPort_congr _ _ _ _ ?_)
    simp [Port.isIn, ho, hh, streamTimers, Timer.off, Timer.resume]
  · have hn : ((s.port p).isIn .offering && !(s.port p).train.pageHeard) = false := by
      rcases h with h | h <;> simp [Port.isIn, h]
    rw [exec_g2IdleStreamChange]
    split
    · next hb =>
      refine congrArg _ (((State.modPort_id s p).symm).trans (State.modPort_congr _ _ _ _ ?_))
      rw [← hb]
    · refine congrArg _ (State.modPort_congr _ _ _ _ ?_)
      simp only [hn, Bool.false_eq_true, if_false]
  · have hx : exec (.legacyDetection p) s = .next (s.modPort p (enterResolving .G2 true)) := by
      refine congrArg Host.Outcome.next ((onPort_pos (by simp [Port.isIn, ho, hh, hl])).trans ?_)
      rw [if_pos hg]
    obtain ⟨ha, hb⟩ := listenTimers_qualify (s.port p).front
    refine ⟨_, hx, .modPort s p _, ?_⟩
    rw [State.modPort_port_self]
    exact ⟨rfl, rfl, rfl, rfl, rfl, ha, hb⟩
  · have hx : exec (.legacyDetection p) s = .next (failAttempt p .noCommonGrade s) := by
      refine congrArg Host.Outcome.next ((onPort_pos (by simp [Port.isIn, ho, hh, hl])).trans ?_)
      rw [hg]; rfl
    exact ⟨_, hx, (failAttempt_spec p .noCommonGrade s (.inl rfl)).1⟩

/-! ### The offer exchange -/

/-- The port after a hearing (R9, R11). -/
def heardPage (page : OfferPage) (pt : Port) : Port :=
  { pt with
    train := hearPage page pt.train
    front.g2Stream := false
    timers := { pt.timers with alternation := Timer.off, legacy := Timer.off } }

theorem exec_offerPageHearing {p : PortId} {s : State} (page : OfferPage) (h : (s.port p).train.state = .offering) :
    exec (.offerPageHearing p page) s = .next (
      if (hearPage page (s.port p).train).accepted && page.ack then completeExchange p page (s.modPort p (heardPage page))
      else s.modPort p (heardPage page)) := by
  refine congrArg Host.Outcome.next ((onPort_pos (Port.isIn_iff.2 h)).trans ?_)
  simp only [State.modPort_port_self]
  rfl

theorem hearPage_first {page : OfferPage} {t : Training} (h : samePage t.partner page = false) :
    hearPage page t = { t with partner := some page, pageHeard := true, hearing := 1, accepted := false } := by
  simp [hearPage, h]

/-- An identical page, the acknowledge flag disregarded, counts up to 3, and the third is accepted (R9). -/
theorem hearPage_again {page : OfferPage} {t : Training} (h : samePage t.partner page = true) :
    hearPage page t = { t with
      partner := some page, pageHeard := true, hearing := min 3 (t.hearing + 1)
      accepted := t.accepted || decide (2 ≤ t.hearing) } := by
  have h3 : (min 3 (t.hearing + 1) == 3) = decide (2 ≤ t.hearing) := by
    rw [Bool.eq_iff_iff]; simp
  simp [hearPage, h, h3]

/-- Settles O21: a first or differing page counts 1, an identical one goes on counting. -/
theorem offerPageHearingsCountAndCompare : Obligations.OfferPageHearingsCountAndCompare := by
  intro p page s ho
  have first : samePage (s.port p).train.partner page = false →
      exec (.offerPageHearing p page) s = .next (s.modPort p (fun pt =>
        { pt with
          front.g2Stream := false
          train := { pt.train with partner := some page, pageHeard := true, hearing := 1, accepted := false }
          timers := { pt.timers with alternation := ⟨false, 0, 0⟩, legacy := ⟨false, 0, 0⟩ } })) := fun h => by
    rw [exec_offerPageHearing page ho, hearPage_first h]
    exact congrArg _ (State.modPort_congr _ _ _ _ (by simp [heardPage, hearPage_first h, Timer.off]))
  refine ⟨fun hn => first (by rw [hn]; rfl), fun b hb hc => ?_, fun q hq hd => first ?_⟩
  · have hsame : samePage (s.port p).train.partner page = true := by simp [samePage, hb]
    rw [exec_offerPageHearing page ho, hearPage_again hsame, if_neg]
    · exact congrArg _ (State.modPort_congr _ _ _ _ (by simp [heardPage, hearPage_again hsame, Timer.off]))
    · rcases hc with h | ⟨h, k⟩
      · simp [h]
      · simp [h, k]
  · obtain ⟨g, r, sd, a⟩ := q
    obtain ⟨g', r', sd', a'⟩ := page
    simp only [hq, samePage, decide_eq_false_iff_not, OfferPage.mk.injEq, and_true, not_and_or]
    exact hd

theorem settleRole_equal {pref : RolePref} {seed : BitVec 10} {page : OfferPage} (h : page.pref = pref) :
    settleRole pref seed page =
      if page.seed.toNat < seed.toNat then some .source else if seed.toNat < page.seed.toNat then some .follow else none := by
  cases pref <;> simp [settleRole, h, BitVec.lt_def]

section
variable {p : PortId} {page : OfferPage} {s : State}

/-- What the completing hearing leaves of the page and of the port's offer (R9). -/
theorem completeExchange_noGrade (h : highestGrade ((currentOffer (s.port p).train).inter page.grades) = none) :
    completeExchange p page (s.modPort p (heardPage page)) = failAttempt p .noCommonGrade (s.modPort p (heardPage page)) := by
  have hoffer : currentOffer (heardPage page (s.port p)).train = currentOffer (s.port p).train := rfl
  simp only [completeExchange, State.modPort_port_self, hoffer, h]

theorem completeExchange_role {g : Grade} {r : Role}
    (h : highestGrade ((currentOffer (s.port p).train).inter page.grades) = some g)
    (hr : settleRole (s.port p).train.rolePref (s.port p).train.seed page = some r) :
    completeExchange p page (s.modPort p (heardPage page)) = s.modPort p (fun pt =>
      { enterResolving g false (heardPage page pt) with
        train := { (enterResolving g false (heardPage page pt)).train with role := some r } }) := by
  have hoffer : currentOffer (heardPage page (s.port p)).train = currentOffer (s.port p).train := rfl
  have hrole : settleRole (enterResolving g false (heardPage page (s.port p))).train.rolePref
      (enterResolving g false (heardPage page (s.port p))).train.seed page = some r := hr
  simp only [completeExchange, State.modPort_port_self, hoffer, h, roleOrTie, State.modPort_modPort, hrole]

/-- The port at a tie: it has met RESOLVING, and the tie is counted (R13). -/
def tiedPort (page : OfferPage) (g : Grade) (pt : Port) : Port :=
  { enterResolving g false (heardPage page pt) with
    train := { (enterResolving g false (heardPage page pt)).train with tieCount := pt.train.tieCount + 1 } }

theorem completeExchange_tie {g : Grade}
    (h : highestGrade ((currentOffer (s.port p).train).inter page.grades) = some g)
    (hr : settleRole (s.port p).train.rolePref (s.port p).train.seed page = none) :
    completeExchange p page (s.modPort p (heardPage page)) =
      if 7 ≤ (s.port p).train.tieCount + 1 then failAttempt p .roleTie (s.modPort p (tiedPort page g))
      else repeatOffering p (s.modPort p (tiedPort page g)) := by
  have hoffer : currentOffer (heardPage page (s.port p)).train = currentOffer (s.port p).train := rfl
  have hrole : settleRole (enterResolving g false (heardPage page (s.port p))).train.rolePref
      (enterResolving g false (heardPage page (s.port p))).train.seed page = none := hr
  have ht : (enterResolving g false (heardPage page (s.port p))).train.tieCount = (s.port p).train.tieCount := rfl
  simp only [completeExchange, State.modPort_port_self, hoffer, h, roleOrTie, State.modPort_modPort, hrole, ht]
  rfl

theorem repeatOffering_modPort (f : Port → Port) :
    repeatOffering p (s.modPort p f) =
      { s.modPort p (fun pt => repeatAttempt (Config.seedDraw s.draws) (f pt)) with draws := s.draws + 1 } := by
  simp only [repeatOffering, State.modPort_modPort, State.modPort_draws]

end

/-- Settles O22: the completing hearing resolves the grade, then the role, or fails the attempt; the table of roles case by case. -/
theorem completedExchangeResolvesGradeAndRole : Obligations.CompletedExchangeResolvesGradeAndRole := by
  refine ⟨fun p page b s ho hb ha hacc => ?_, fun seed page => ⟨fun h => ?_, fun h => ?_, fun h => ?_, fun h => ?_, fun pref h => settleRole_equal h⟩⟩
  · have hsame : samePage (s.port p).train.partner page = true := by simp [samePage, hb]
    have hx : exec (.offerPageHearing p page) s = .next (completeExchange p page (s.modPort p (heardPage page))) := by
      rw [exec_offerPageHearing page ho, hearPage_again hsame, if_pos]
      simpa [ha] using hacc
    rw [hx]
    refine ⟨fun hg => ?_, fun g hg => ⟨fun r hr => ?_, fun hr ht => ?_, fun hr ht => ?_⟩⟩
    · rw [completeExchange_noGrade hg]
      exact ⟨_, rfl, failAttempt_uncounted rfl ⟨⟨rfl, rfl, rfl, rfl, rfl⟩, rfl, rfl, rfl, rfl⟩⟩
    · rw [completeExchange_role hg hr]
      refine ⟨_, rfl, .modPort s p _, ?_⟩
      rw [State.modPort_port_self]
      exact ⟨rfl, rfl, rfl, rfl, rfl, rfl, ⟨rfl, rfl, rfl, rfl, rfl, rfl, rfl, rfl⟩, rfl, rfl, rfl, rfl, rfl⟩
    · rw [completeExchange_tie hg hr, if_neg (by omega)]
      refine ⟨repeatOffering p (s.modPort p (tiedPort page g)), rfl, ?_, ?_⟩
      · rw [repeatOffering_modPort]
        exact congrArg (fun u : State => { u with draws := s.draws + 1 }) (SameButPort.modPort s p _)
      · have hp : (repeatOffering p (s.modPort p (tiedPort page g))).port p =
            repeatAttempt (Config.seedDraw s.draws) (tiedPort page g (s.port p)) := by
          rw [repeatOffering_modPort]
          exact State.modPort_port_self s p (fun pt => repeatAttempt (Config.seedDraw s.draws) (tiedPort page g pt))
        rw [hp]
        exact ⟨rfl, rfl, rfl, ⟨rfl, rfl, rfl, rfl, rfl⟩, rfl, rfl, ⟨rfl, rfl, rfl, rfl, rfl, rfl, rfl, rfl⟩, rfl, rfl, rfl, rfl, rfl⟩
    · rw [completeExchange_tie hg hr, if_pos (by omega)]
      exact ⟨_, rfl, failAttempt_uncounted rfl ⟨⟨rfl, rfl, rfl, rfl, rfl⟩, rfl, rfl, rfl, rfl⟩⟩
  all_goals cases hp : page.pref <;> simp_all [settleRole]

/-! ### The limits of training -/

section
variable {p : PortId} {s : State}

theorem exec_crossingListenLimit (h : (s.port p).listeningIn = true) :
    exec (.crossingListenLimit p) s = .next (failAttempt p .pairMissing
      (s.modPort p (fun pt => { pt with res.missing := some ⟨true, true, false, false⟩ }))) :=
  congrArg Host.Outcome.next (onPort_pos h)

theorem exec_identificationLimit (h : (s.port p).exchanging = true) (hi : (s.port p).res.identified = false) :
    exec (.identificationLimit p) s = .next (failAttempt p .pairMissing (s.modPort p (fun pt =>
      { pt with res.missing := some (PerPair.zip (fun g r => g && !(identifiedRecord r)) pt.gradePairs pt.res.ident) }))) :=
  congrArg Host.Outcome.next (onPort_pos (by simp [h, hi]))

/-- A pair found missing: the attempt fails with the resolution results that name it. -/
theorem failAttempt_missing {f : Port → Port} {r : Resolution} (hn : NoDownshiftTest p s) (hf : f (s.port p) = { s.port p with res := r }) :
    AttemptFailed p .pairMissing ((s.port p).train.grade.any fourPairGrade) s (failAttempt p .pairMissing (s.modPort p f)) ∧
      ((failAttempt p .pairMissing (s.modPort p f)).port p).res = r := by
  have hn' : NoDownshiftTest p (s.modPort p f) := by simpa [NoDownshiftTest, hf] using hn
  obtain ⟨h1, h2⟩ := failAttempt_spec p .pairMissing (s.modPort p f) (.inr hn')
  rw [State.modPort_port_self, hf] at h1 h2
  exact ⟨h1.of_prepared (by rw [hf]; exact .ofRes _ _), h2⟩

end

/-- Settles O23: each limit fails the attempt with its cause. -/
theorem trainingLimitsFailTheAttemptIntoBackoff : Obligations.TrainingLimitsFailTheAttemptIntoBackoff := by
  intro p s
  refine ⟨fun ho => ?_, fun hr hn => ?_, fun hq hn => ?_, fun hr hl hn => ?_, fun g hr hl hi hg hn => ?_⟩
  · exact ⟨_, congrArg Host.Outcome.next (onPort_pos (Port.isIn_iff.2 ho)), (failAttempt_spec p .offerTimeout s (.inl rfl)).1⟩
  · obtain ⟨hf, hres⟩ := failAttempt_spec p .resolveTimeout s (.inr hn)
    exact ⟨_, congrArg Host.Outcome.next (onPort_pos (Port.isIn_iff.2 hr)), hres, hf⟩
  · obtain ⟨hf, hres⟩ := failAttempt_spec p .qualifyTimeout s (.inr hn)
    exact ⟨_, congrArg Host.Outcome.next (onPort_pos (Port.isIn_iff.2 hq)), hres, hf⟩
  · obtain ⟨hf, hres⟩ := failAttempt_missing
      (f := fun pt => { pt with res.missing := some ⟨true, true, false, false⟩ }) hn rfl
    exact ⟨_, exec_crossingListenLimit (Port.listeningIn_iff.2 ⟨hr, hl⟩), hres, hf⟩
  · obtain ⟨hf, hres⟩ := failAttempt_missing (f := fun pt =>
      { pt with res.missing := some (PerPair.zip (fun g r => g && !(identifiedRecord r)) pt.gradePairs pt.res.ident) }) hn rfl
    refine ⟨_, exec_identificationLimit (Port.exchanging_iff.2 ⟨hr, hl⟩) hi, hres.trans ?_, ?_⟩
    · rw [Port.gradePairs_of hg]
      cases g <;> rfl
    · simpa [hg] using hf

end Sys2Proof.Machine
end

section
/-! PROOF of O24: the first downshift test, the request it makes, and the commands that bring it. -/

namespace Sys2Proof.Machine

open Sys2Proof

/-! ### Requests read the queue, the arrival stamp and the sweep alone -/

/-- u with the queue, the arrival stamp and the sweep of s. -/
def withQueueOf (u s : State) : State := { u with queue := s.queue, arrival := s.arrival, sweep := s.sweep }

theorem sweepOver_withQueueOf (f : SweepFields) (ps : List PortId) (u s : State) :
    sweepOver f ps (withQueueOf u s) = withQueueOf u (sweepOver f ps s) := by
  induction ps generalizing s with
  | nil => by_cases hf : f.period = 0 <;> simp only [sweepOver, endRound, hf, if_true, if_false] <;> rfl
  | cons q qs ih =>
    have h1 : heldFor q (withQueueOf u s) = heldFor q s := rfl
    have h2 : waitingFor q (withQueueOf u s) = waitingFor q s := rfl
    have h3 : (withQueueOf u s).queue = s.queue := rfl
    by_cases hh : heldFor q s = true
    · simp only [sweepOver, h1, hh, if_true]
      exact ih { s with sweep.cursor := some q }
    · simp only [sweepOver, h1, h2, h3, hh, Bool.false_eq_true, if_false]
      cases waitingFor q s with
      | some e => rfl
      | none => by_cases hl : s.queue.length < queueCapacity <;> simp only [hl, if_true, if_false] <;> rfl

theorem sweepAfter_withQueueOf (b : Bool) (u s : State) :
    sweepAfter b (withQueueOf u s) = withQueueOf u (sweepAfter b s) := by
  have hs : (withQueueOf u s).sweep = s.sweep := rfl
  simp only [sweepAfter, sweepAdvance, hs]
  split
  · cases hf : s.sweep.fields with
    | none => rfl
    | some f => exact sweepOver_withQueueOf f _ u s
  · rfl

theorem autoRequest_withQueueOf (q : PortId) (r : MeasureRequest) (u s : State) :
    autoRequest q r (withQueueOf u s) = (autoRequest q r s).map (withQueueOf u) := by
  have h1 : heldFor q (withQueueOf u s) = heldFor q s := rfl
  have h2 : waitingFor q (withQueueOf u s) = waitingFor q s := rfl
  have h3 : (withQueueOf u s).queue = s.queue := rfl
  simp only [autoRequest, h1, h2, h3]
  cases waitingFor q s with
  | some e => rfl
  | none =>
    by_cases hh : heldFor q s = true
    · simp only [hh, if_true]; rfl
    · by_cases hl : s.queue.length < queueCapacity
      · simp only [hh, hl, Bool.false_eq_true, if_false, if_true]; rfl
      · simp only [hh, hl, Bool.false_eq_true, if_false]
        cases youngestBackground s.queue with
        | none => rfl
        | some b => exact congrArg some (sweepAfter_withQueueOf _ u (addEntry q r (removeEntry b.target s)))

/-- A change of port p and of the events, carried over to another queue. -/
theorem OnlyPortAndEvents.withQueueOf {p : PortId} {s u X : State} (h : OnlyPortAndEvents p s u)
    (hX : OnlyQueueAndSweep s X) : OnlyPortAndEvents p X (withQueueOf u X) := by
  obtain ⟨hrest, hkept, halert⟩ := h
  simp only [OnlyQueueAndSweep] at hX
  have hs : X.summary = s.summary := by rw [hX]
  have hl : X.line = s.line := by rw [hX]
  refine ⟨?_, by rw [hs]; exact hkept, by rw [hs, hl]; exact halert⟩
  conv_lhs => rw [hrest]
  conv_rhs => rw [hX]
  rfl

/-! ### The failed attempt that comes to the test -/

/-- The state in which the first downshift test runs: the failure is noted, and the run's alert raised (R18). -/
def failureNoted (p : PortId) (cause : FailureCause) (s : State) : State :=
  let s1 := s.modPort p (fun pt => { pt with train := noteFailure cause pt.train })
  if !(s.port p).train.runAlerted && decide (8 ≤ countTo15 (s.port p).train.consecutive) then raise (.trainFailed p) s1 else s1

section
variable {p : PortId} {cause : FailureCause} {s : State}

theorem failureNoted_port :
    (failureNoted p cause s).port p = { s.port p with train := noteFailure cause (s.port p).train } := by
  simp only [failureNoted]; split <;> simp

theorem failureNoted_setup : (failureNoted p cause s).setup = s.setup := by
  simp only [failureNoted]; split <;> simp

theorem failureNoted_only : OnlyPortAndEvents p s (failureNoted p cause s) := by
  simp only [failureNoted]; split
  · exact (OnlyPortAndEvents.modPort p _ s).trans (.raise p _ _)
  · exact .modPort p _ s

theorem failureNoted_summary :
    (failureNoted p cause s).summary =
      if (s.port p).train.runAlerted = false ∧ 8 ≤ min 15 ((s.port p).train.consecutive + 1)
      then s.summary.add (.trainFailed p) else s.summary := by
  by_cases h : (!(s.port p).train.runAlerted && decide (8 ≤ countTo15 (s.port p).train.consecutive)) = true
  · rw [failureNoted, if_pos h, if_pos (by simpa [countTo15] using h)]; simp
  · rw [failureNoted, if_neg h, if_neg (by simpa [countTo15] using h)]; simp

theorem failureNoted_queue : failureNoted p cause s = withQueueOf (failureNoted p cause s) s := by
  simp only [failureNoted, withQueueOf]; split
  · rw [raise_eq]; rfl
  · rfl

/-- A four-pair failure at the attempts setting takes the test (R18 step 6, R38). -/
theorem failAttempt_tested {g : Grade} (hg : (s.port p).train.grade = some g) (h4 : g = .G3 ∨ g = .G4)
    (hc : cause = .resolveTimeout ∨ cause = .skewLimit ∨ cause = .pairMissing ∨ cause = .qualifyTimeout)
    (he : s.setup.downshiftEnable = true) (hn : min 15 ((s.port p).train.fourPair + 1) = s.setup.downshiftAttempts) :
    failAttempt p cause s = firstDownshiftTest p (failureNoted p cause s) ∧
      (noteFailure cause (s.port p).train).fourPair = s.setup.downshiftAttempts := by
  have hf : fourPairFailure cause (s.port p).train = true := by
    rcases hc with rfl | rfl | rfl | rfl <;> rcases h4 with rfl | rfl <;> simp [fourPairFailure, countsFourPair, hg, fourPairGrade]
  refine ⟨if_pos (by simp [hf, countTo15, hn, he]), by simp [noteFailure, hf, countTo15, hn]⟩

/-- A SOUND or FAULTY pair tells the test's outcome; otherwise it asks (R38, R39). -/
theorem firstDownshiftTest_faulty (h : (s.port p).train.health.c = .faulty ∨ (s.port p).train.health.d = .faulty) :
    firstDownshiftTest p s = (setDownshift p s).modPort p enterBackoff :=
  if_pos (by simpa [pairFaulty] using h)

theorem firstDownshiftTest_sound (hc : (s.port p).train.health.c = .sound) (hd : (s.port p).train.health.d = .sound) :
    firstDownshiftTest p s = (clearFourPair p s).modPort p enterBackoff := by
  simp [firstDownshiftTest, pairFaulty, pairsSound, hc, hd]

/-- Neither pair C nor pair D is FAULTY, and one is UNKNOWN. -/
def HealthOpen (t : Training) : Prop :=
  t.health.c ≠ .faulty ∧ t.health.d ≠ .faulty ∧ (t.health.c = .unknown ∨ t.health.d = .unknown)

theorem firstDownshiftTest_open_queued {X : State} (h : HealthOpen (s.port p).train)
    (hX : autoRequest p (downshiftRequest p s) s = some X) :
    firstDownshiftTest p s = react (hold p addAwaitHold (X.modPort p (fun pt => { pt with train.downshiftCheck := true }))) := by
  obtain ⟨hc, hd, hu⟩ := h
  have h1 : pairFaulty (s.port p).train = false := by simp [pairFaulty, hc, hd]
  have h2 : pairsSound (s.port p).train = false := by rcases hu with h | h <;> simp [pairsSound, h]
  simp only [firstDownshiftTest, h1, h2, Bool.false_eq_true, if_false, hX]

theorem firstDownshiftTest_open_full (h : HealthOpen (s.port p).train)
    (hX : autoRequest p (downshiftRequest p s) s = none) :
    firstDownshiftTest p s = noteQueueFull p (reEnter p (clearFourPair p s)) := by
  obtain ⟨hc, hd, hu⟩ := h
  have h1 : pairFaulty (s.port p).train = false := by simp [pairFaulty, hc, hd]
  have h2 : pairsSound (s.port p).train = false := by rcases hu with h | h <;> simp [pairsSound, h]
  simp only [firstDownshiftTest, h1, h2, Bool.false_eq_true, if_false, hX]

/-- A port that has left its attempt for the measurement asked for (R39). -/
def awaitingCheck (pt : Port) : Port := holdPort addAwaitHold { pt with train.downshiftCheck := true }

/-- The request reads the health, which the failure leaves. -/
theorem autoRequest_failureNoted (r : MeasureRequest) :
    autoRequest p r (failureNoted p cause s) = (autoRequest p r s).map (withQueueOf (failureNoted p cause s)) := by
  conv_lhs => rw [failureNoted_queue]
  exact autoRequest_withQueueOf p r _ s

theorem downshiftRequest_failureNoted : downshiftRequest p (failureNoted p cause s) = downshiftRequest p s := by
  simp only [downshiftRequest, failureNoted_port, failureNoted_setup]
  rfl

/-- What the port keeps of a noted failure as it goes to BACKOFF. -/
theorem failureNoted_backoff {t : State} {f : Port → Port} (ht : t.port p = enterBackoff (f ((failureNoted p cause s).port p)))
    (hf : ∀ pt : Port, f pt = { pt with train := (f pt).train } ∧ (f pt).train.lastFailure = pt.train.lastFailure ∧
      (f pt).train.consecutive = pt.train.consecutive ∧ (f pt).train.health = pt.train.health ∧ (f pt).train.forced = pt.train.forced) :
    FailureNoted p cause s t := by
  obtain ⟨h0, h1, h2, h3, h4⟩ := hf ((failureNoted p cause s).port p)
  rw [failureNoted_port] at h0 h1 h2 h3 h4 ht
  refine ⟨?_, ?_, ?_, ?_, ?_, ?_, ?_, ?_, ?_⟩ <;> rw [ht]
  · exact ⟨rfl, rfl, rfl, rfl, rfl⟩
  · exact h1
  · exact h2
  · exact h3
  · exact h4
  all_goals simp only [enterBackoff, settleInto]; rw [h0]

/-- The test asks for a measurement, and the port waits for it with the request in the queue of X. -/
theorem firstDownshiftTest_asks {X : State} (hs : (s.port p).train.state ≠ .held) (h : HealthOpen (s.port p).train)
    (hn : (noteFailure cause (s.port p).train).fourPair = s.setup.downshiftAttempts)
    (hX : autoRequest p (downshiftRequest p s) s = some X) :
    ∃ u, firstDownshiftTest p (failureNoted p cause s) = react u ∧ AwaitsDownshiftCheck p cause s u ∧
      u.summary = (failureNoted p cause s).summary ∧ OnlyPortAndEvents p X u := by
  have ho : HealthOpen ((failureNoted p cause s).port p).train := by rw [failureNoted_port]; exact h
  have hXp : (withQueueOf (failureNoted p cause s) X).port p =
      { s.port p with train := noteFailure cause (s.port p).train } := failureNoted_port
  refine ⟨(withQueueOf (failureNoted p cause s) X).modPort p awaitingCheck, ?_, ?_, rfl, ?_⟩
  · rw [firstDownshiftTest_open_queued (X := withQueueOf (failureNoted p cause s) X) ho
      (by rw [downshiftRequest_failureNoted, autoRequest_failureNoted, hX]; rfl)]
    simp only [hold, State.modPort_modPort]
    rfl
  · have hp : ((withQueueOf (failureNoted p cause s) X).modPort p awaitingCheck).port p =
        { settleInto .held { s.port p with train := { noteFailure cause (s.port p).train with downshiftCheck := true } } with
          train.holds := ⟨false, false, true⟩ } := by
      rw [State.modPort_port_self, hXp, awaitingCheck, holdPort, if_neg (by exact hs)]
      rfl
    rw [AwaitsDownshiftCheck, FailureNoted, hp]
    exact ⟨⟨⟨rfl, rfl, rfl, rfl, rfl⟩, rfl, rfl, rfl, rfl, rfl, rfl, rfl, rfl⟩, rfl, rfl, rfl, rfl, hn⟩
  · exact (failureNoted_only.withQueueOf (autoRequest_only hX)).trans (.modPort p _ _)

end

/-! ### The skew test (R34) -/

/-- One of the four trips exceeds the least by more than the limit. -/
theorem skewsOf_exceed {a b c d n : Nat} :
    (skewsOf ⟨a, b, c, d⟩).toList.any (fun k => decide (n < k)) = true ↔ ∃ k ∈ [a, b, c, d], min (min a b) (min c d) + n < k := by
  simp [skewsOf, PerPair.map, PerPair.toList]
  omega

/-- The port once its fourth trip is recorded: the skews, and PROBED sent by a SOURCE port (R33, R34). -/
def skewsTaken (qp : PerPair Nat) (pt : Port) : Port :=
  { pt with res := { pt.res with
      skew := (skewsOf qp).map some, probing := false, probedSent := pt.train.role == some .source } }

/-- The port whose skew test fails: a SOURCE port's PROBED goes out with the patterns (R34; assumption log 37). -/
def skewsFailed (qp : PerPair Nat) (pt : Port) : Port :=
  if (skewsTaken qp pt).res.probedSent then sendPatterns (skewsTaken qp pt) else skewsTaken qp pt

section
variable {p : PortId} {s : State}

theorem skewTest_fails {qp : PerPair Nat} (h : allQp (s.port p).res = some qp)
    (hk : (skewsOf qp).toList.any (fun k => decide (s.setup.skewLimit < k)) = true) :
    skewTest p s = failAttempt p .skewLimit (s.modPort p (skewsFailed qp)) := by
  simp only [skewTest, h, hk, if_true, State.modPort_modPort]
  rfl

theorem skewTest_passes {qp : PerPair Nat} (h : allQp (s.port p).res = some qp)
    (hk : (skewsOf qp).toList.any (fun k => decide (s.setup.skewLimit < k)) = false) :
    skewTest p s = s.modPort p (fun pt => passChecks (skewsTaken qp pt)) := by
  simp only [skewTest, h, hk, Bool.false_eq_true, if_false, State.modPort_modPort]
  rfl

/-- The port with a trip recorded (R33). -/
def tripRecorded (x : Pair) (q : Nat) (pt : Port) : Port :=
  { pt with res := { pt.res with qp := pt.res.qp.set x (some q), probesOut := pt.res.probesOut.set x false } }

theorem exec_probeReturn {x : Pair} {q : Nat} (hr : (s.port p).train.state = .resolving) (hl : (s.port p).res.listening = false)
    (hp : (s.port p).res.probing = true) (ho : (s.port p).res.probesOut.get x = true) (hn : (s.port p).res.qp.get x = none)
    (hq : q ≤ 6143) : exec (.probeReturn p x q) s = .next (skewTest p (s.modPort p (tripRecorded x q))) :=
  congrArg Host.Outcome.next (onPort_pos (by simp [Port.exchanging_iff.2 ⟨hr, hl⟩, hp, ho, hn, hq]))

theorem allQp_tripRecorded {x : Pair} {q a b c d : Nat}
    (h : (s.port p).res.qp.set x (some q) = ⟨some a, some b, some c, some d⟩) :
    allQp ((s.modPort p (tripRecorded x q)).port p).res = some ⟨a, b, c, d⟩ := by
  simp [allQp, tripRecorded, h]

/-- The fourth trip makes the failing skew test: the port fails from the state that has sent PROBED where it is the SOURCE. -/
theorem exec_probeReturn_fails {x : Pair} {q a b c d : Nat} (hr : (s.port p).train.state = .resolving)
    (hl : (s.port p).res.listening = false) (hp : (s.port p).res.probing = true) (ho : (s.port p).res.probesOut.get x = true)
    (hn : (s.port p).res.qp.get x = none) (hq : q ≤ 6143)
    (hset : (s.port p).res.qp.set x (some q) = ⟨some a, some b, some c, some d⟩)
    (hk : ∃ k ∈ [a, b, c, d], min (min a b) (min c d) + s.setup.skewLimit < k) :
    exec (.probeReturn p x q) s = .next (failAttempt p .skewLimit
      (s.modPort p (fun pt => skewsFailed ⟨a, b, c, d⟩ (tripRecorded x q pt)))) := by
  rw [exec_probeReturn hr hl hp ho hn hq, skewTest_fails (allQp_tripRecorded hset) (skewsOf_exceed.2 hk), State.modPort_modPort]

theorem skewsFailed_front (qp : PerPair Nat) (x : Pair) (q : Nat) :
    (skewsFailed qp (tripRecorded x q (s.port p))).front = frontAtFailure p .skewLimit s := by
  have hsent : (skewsTaken qp (tripRecorded x q (s.port p))).res.probedSent = ((s.port p).train.role == some .source) := rfl
  simp only [skewsFailed, frontAtFailure, hsent]
  by_cases h : (s.port p).train.role = some .source
  · simp only [h, beq_self_eq_true, if_true, and_self]
    simp [sendPatterns, skewsTaken, tripRecorded, Port.gradePairs, h]
  · simp [h, skewsTaken, tripRecorded]

theorem skewsFailed_train (qp : PerPair Nat) (pt : Port) : (skewsFailed qp pt).train = pt.train := by
  simp only [skewsFailed]; split <;> rfl

end

/-- Settles O24: the three outcomes of the test, and the commands that come to it. -/
theorem firstDownshiftTestReadsTheHealthOfCAndD : Obligations.FirstDownshiftTestReadsTheHealthOfCAndD := by
  refine ⟨fun p g cause s hs hg h4 hc he hn alerted ha => ?_, fun p s => ?_⟩
  · obtain ⟨htest, hfour⟩ := failAttempt_tested hg h4 hc he hn
    rw [htest, ha, ← failureNoted_summary (p := p) (cause := cause) (s := s)]
    have hheld : (s.port p).train.state ≠ .held := by rcases hs with h | h <;> simp [h]
    have hhealth : ((failureNoted p cause s).port p).train.health = (s.port p).train.health := by
      rw [failureNoted_port]; rfl
    refine ⟨fun hf => ?_, fun h1 h2 => ?_, fun h1 h2 h3 r hr => ⟨fun hq hl => ?_, fun e hw => ?_, fun b w hq hl hb hbw hbp hy hw => ?_, fun hq hl hb => ?_⟩⟩
    · rw [firstDownshiftTest_faulty (by rwa [hhealth])]
      refine ⟨((failureNoted_only.trans (.modPort p _ _)).trans (.raise p _ _)).trans (.modPort p _ _), by simp [setDownshift], ?_, ?_, ?_, ?_⟩
      · refine failureNoted_backoff (f := fun pt => { pt with train := { pt.train with downshift := true, fourPair := 0 } })
          (by simp [setDownshift]) (fun pt => ⟨rfl, rfl, rfl, rfl, rfl⟩)
      all_goals simp [setDownshift, enterBackoff, settleInto, clearAttempt]
    · rw [firstDownshiftTest_sound (by rwa [hhealth]) (by rwa [hhealth])]
      refine ⟨(failureNoted_only.trans (.modPort p _ _)).trans (.modPort p _ _), by simp [clearFourPair], ?_, ?_, ?_, ?_⟩
      · refine failureNoted_backoff (f := fun pt => { pt with train.fourPair := 0 })
          (by simp [clearFourPair]) (fun pt => ⟨rfl, rfl, rfl, rfl, rfl⟩)
      all_goals simp [clearFourPair, enterBackoff, settleInto, clearAttempt, failureNoted_port, noteFailure]
    all_goals subst hr
    · exact firstDownshiftTest_asks hheld ⟨h1, h2, h3⟩ hfour (autoRequest_accepted hq hl)
    · obtain ⟨u, hu⟩ := firstDownshiftTest_asks hheld ⟨h1, h2, h3⟩ hfour (autoRequest_merged hw)
      rw [mergeInto, mergeEntry_urgent (downshiftRequest p s) e rfl rfl rfl] at hu
      exact ⟨u, hu⟩
    · obtain ⟨u, hu⟩ := firstDownshiftTest_asks hheld ⟨h1, h2, h3⟩ hfour (autoRequest_displacing hq hl hb hbw hbp hy)
      rw [sweepAfter_carriesTag b s (addEntry p (downshiftRequest p s) (removeEntry b.target s)) rfl] at hu
      rw [hw]
      exact ⟨u, hu⟩
    · have hno : autoRequest p (downshiftRequest p (failureNoted p cause s)) (failureNoted p cause s) = none := by
        rw [autoRequest_failureNoted, downshiftRequest_failureNoted, autoRequest_full hq hl hb]; rfl
      have hopen : HealthOpen ((failureNoted p cause s).port p).train := by
        simp only [HealthOpen, hhealth]; exact ⟨h1, h2, h3⟩
      rw [firstDownshiftTest_open_full hopen hno]
      refine ⟨((failureNoted_only.trans (.modPort p _ _)).trans (.modPort p _ _)).trans ((OnlyPortAndEvents.modPort p _ _).trans (.raise p _ _)), ?_, ?_⟩
      · simp [noteQueueFull, reEnter, clearFourPair]
      · cases hen : (s.port p).front.energy <;>
          simp [noteQueueFull, reEnter, clearFourPair, failureNoted_port, portReEntry, hen, enterDormant, enterSettling, settleInto,
            clearAttempt, noteFailure]
  · refine ⟨fun hq => ?_, fun hr => ?_, fun hr hl => ?_, fun hr hl hi => ?_, fun x q a b c d hr hl hp ho hn hq hset hk => ?_⟩
    · exact congrArg Host.Outcome.next (onPort_pos (Port.isIn_iff.2 hq))
    · exact congrArg Host.Outcome.next (onPort_pos (Port.isIn_iff.2 hr))
    · refine ⟨_, ⟨.modPort s p _, ?_⟩, exec_crossingListenLimit (Port.listeningIn_iff.2 ⟨hr, hl⟩)⟩
      simp [frontAtFailure]
    · refine ⟨_, ⟨.modPort s p _, ?_⟩, exec_identificationLimit (Port.exchanging_iff.2 ⟨hr, hl⟩) hi⟩
      simp [frontAtFailure]
    · refine ⟨_, ⟨.modPort s p _, ?_⟩, exec_probeReturn_fails hr hl hp ho hn hq hset hk⟩
      rw [State.modPort_port_self, skewsFailed_train, skewsFailed_front]
      exact ⟨rfl, rfl, fun h => by cases h⟩

end Sys2Proof.Machine
end

section
/-! PROOFS of O25 to O30: identification, the markers, the probe returns, the listening pairs, and UP. -/

namespace Sys2Proof.Machine

open Sys2Proof

/-! ### Identification (R30, R31) -/

theorem PerPair.get_set {α : Type} (v : PerPair α) (x y : Pair) (a : α) :
    (v.set x a).get y = if x = y then a else v.get y := by
  cases x <;> cases y <;> rfl

theorem PerPair.set_self {α : Type} {v : PerPair α} {x : Pair} {a : α} (h : v.get x = a) : v.set x a = v := by
  cases x <;> (subst h; rfl)

theorem gradePairs_get {pt : Port} {g : Grade} (hg : pt.train.grade = some g) (x : Pair) :
    pt.gradePairs.get x = true ↔ fourPairGrade g = true ∨ x = .A ∨ x = .B := by
  rw [Port.gradePairs_of hg]
  cases g <;> cases x <;> simp [fourPairGrade, PerPair.get]

theorem allIdentified_iff {pt : Port} :
    pt.allIdentified = true ↔ ∀ x, pt.gradePairs.get x = true → identifiedRecord (pt.res.ident.get x) = true := by
  simp only [Port.allIdentified, List.all_eq_true, PairSet.members, List.mem_filter]
  exact ⟨fun h x hx => h x ⟨by cases x <;> simp [Pair.all], hx⟩, fun h x hx => h x hx.2⟩

/-- The port that has heard a pattern on a pair (R30). -/
def patternHeard (x letter : Pair) (inverted : Bool) (pt : Port) : Port :=
  { pt with res.ident := pt.res.ident.set x (some (hearPattern letter inverted (pt.res.ident.get x))) }

section
variable {p : PortId} {x letter : Pair} {inverted : Bool} {g : Grade} {s : State}

theorem exec_identificationHearing_undecoded (h : (s.port p).res.identified = true ∨ (s.port p).gradePairs.get x = false) :
    exec (.identificationHearing p x letter inverted) s = .next s :=
  congrArg Host.Outcome.next (onPort_neg (by rcases h with h | h <;> simp [h]))

theorem exec_identificationHearing_decoded (hr : (s.port p).train.state = .resolving) (hl : (s.port p).res.listening = false)
    (hi : (s.port p).res.identified = false) (hx : (s.port p).gradePairs.get x = true) :
    exec (.identificationHearing p x letter inverted) s = .next (
      if (patternHeard x letter inverted (s.port p)).allIdentified then
        completeIdentification p (s.modPort p (patternHeard x letter inverted))
      else s.modPort p (patternHeard x letter inverted)) := by
  refine congrArg Host.Outcome.next ((onPort_pos (by simp [Port.exchanging_iff.2 ⟨hr, hl⟩, hi, hx])).trans ?_)
  simp only [State.modPort_port_self]
  rfl

/-- A hearing that leaves a pair of the grade unidentified builds its record and no more. -/
theorem exec_identificationHearing_builds {y : Pair} {r : IdRecord} (hr : (s.port p).train.state = .resolving)
    (hl : (s.port p).res.listening = false) (hi : (s.port p).res.identified = false) (hx : (s.port p).gradePairs.get x = true)
    (hrec : hearPattern letter inverted ((s.port p).res.ident.get x) = r) (hy : (s.port p).gradePairs.get y = true)
    (hopen : identifiedRecord (((s.port p).res.ident.set x (some r)).get y) = false) :
    exec (.identificationHearing p x letter inverted) s =
      .next (s.modPort p (fun pt => { pt with res.ident := pt.res.ident.set x (some r) })) := by
  have hheard : patternHeard x letter inverted (s.port p) =
      { s.port p with res.ident := (s.port p).res.ident.set x (some r) } := by rw [patternHeard, hrec]
  rw [exec_identificationHearing_decoded hr hl hi hx, if_neg]
  · exact congrArg _ (State.modPort_congr _ _ _ _ hheard)
  · rw [allIdentified_iff, hheard]
    intro h
    rw [h y hy] at hopen
    cases hopen

end

/-- Settles O25: what the hearing makes of the record, and why identification is not complete after it. -/
theorem identificationHearingsBuildThePairsRecord : Obligations.IdentificationHearingsBuildThePairsRecord := by
  intro p x letter inverted g s hr hl hg
  refine ⟨fun hi => exec_identificationHearing_undecoded (.inl hi), fun hf hx => ?_, fun hi hx => ?_⟩
  · refine exec_identificationHearing_undecoded (.inr ?_)
    rw [← Bool.not_eq_true, gradePairs_get hg]
    rcases hx with rfl | rfl <;> simp [hf]
  · have hxg := (gradePairs_get hg x).2 hx
    refine ⟨fun hn => ?_, fun r hrec hc hd => ?_, fun y hrec hxy hy hno => ?_, fun r y hrec hc hy hno => ?_⟩
    · refine exec_identificationHearing_builds hr hl hi hxg (by rw [hn]; rfl) hxg ?_
      rw [PerPair.get_set, if_pos rfl]; rfl
    · have hdiff : ¬ (r.letter = letter ∧ r.inverted = inverted) := fun h => hd.elim (fun k => k h.1) (fun k => k h.2)
      refine exec_identificationHearing_builds hr hl hi hxg (by simp [hrec, hearPattern, hc, hdiff]) hxg ?_
      rw [PerPair.get_set, if_pos rfl]; rfl
    · refine exec_identificationHearing_builds hr hl hi hxg (by simp [hrec, hearPattern]) ((gradePairs_get hg y).2 hy) ?_
      rw [PerPair.get_set, if_neg hxy]; exact hno
    · have hset : (s.port p).res.ident.set x (some r) = (s.port p).res.ident := PerPair.set_self hrec
      rw [exec_identificationHearing_builds (r := r) hr hl hi hxg (by simp [hrec, hearPattern, hc]) ((gradePairs_get hg y).2 hy)
        (by rw [hset]; exact hno)]
      refine congrArg _ ((State.modPort_congr _ _ _ _ ?_).trans (State.modPort_id s p))
      rw [hset]

/-! ### The map (R31) -/

theorem groupValid_of {r : Resolution} {x y a b : Pair} (ha : heardLetter r x = some a) (hb : heardLetter r y = some b) :
    groupValid r x y = decide ((a = x ∧ b = y) ∨ (a = y ∧ b = x)) := by
  rw [Bool.eq_iff_iff]
  simp [groupValid, ha, hb]

theorem groupCrossed_of {r : Resolution} {x y a b : Pair} (hxy : x ≠ y) (ha : heardLetter r x = some a)
    (h : (a = x ∧ b = y) ∨ (a = y ∧ b = x)) : groupCrossed r x y = some (a == y) := by
  rcases h with ⟨rfl, -⟩ | ⟨rfl, -⟩ <;> simp [groupCrossed, ha, hxy]

section
variable {p : PortId} {x letter a b : Pair} {inverted ia ib : Bool} {rc rd : Option IdRecord} {g : Grade} {s : State}

theorem completeIdentification_valid (h : (invalidPairs (fixResults (s.port p))).isEmpty = true) :
    completeIdentification p s = s.modPort p (fun pt => afterValidMap (fixResults pt)) := by
  simp only [completeIdentification, State.modPort_port_self, h, if_true, State.modPort_modPort]

theorem completeIdentification_invalid (h : (invalidPairs (fixResults (s.port p))).isEmpty = false) :
    completeIdentification p s = failAttempt p .pairMissing (s.modPort p (fun pt =>
      { fixResults pt with res := { (fixResults pt).res with missing := some (invalidPairs (fixResults (s.port p))) } })) := by
  simp only [completeIdentification, State.modPort_port_self, h, Bool.false_eq_true, if_false, State.modPort_modPort]

/-- The port whose last pair of the grade has been identified. -/
def identifiedPort (a b : Pair) (ia ib : Bool) (rc rd : Option IdRecord) (pt : Port) : Port :=
  { pt with res.ident := ⟨some ⟨a, ia, 2⟩, some ⟨b, ib, 2⟩, rc, rd⟩ }

theorem exec_identificationHearing_completes (hr : (s.port p).train.state = .resolving) (hl : (s.port p).res.listening = false)
    (hi : (s.port p).res.identified = false) (hg : (s.port p).train.grade = some g)
    (hx : fourPairGrade g = true ∨ x = .A ∨ x = .B)
    (hrec : (s.port p).res.ident.get x = some ⟨letter, inverted, 1⟩)
    (hset : (s.port p).res.ident.set x (some ⟨letter, inverted, 2⟩) = ⟨some ⟨a, ia, 2⟩, some ⟨b, ib, 2⟩, rc, rd⟩)
    (hcd : fourPairGrade g = true → identifiedRecord rc = true ∧ identifiedRecord rd = true) :
    exec (.identificationHearing p x letter inverted) s =
      .next (completeIdentification p (s.modPort p (identifiedPort a b ia ib rc rd))) := by
  have hheard : patternHeard x letter inverted (s.port p) = identifiedPort a b ia ib rc rd (s.port p) := by
    simp [patternHeard, identifiedPort, hrec, hearPattern, hset]
  have hgrade : (identifiedPort a b ia ib rc rd (s.port p)).train.grade = some g := hg
  rw [exec_identificationHearing_decoded hr hl hi ((gradePairs_get hg x).2 hx), if_pos]
  · rw [State.modPort_congr _ _ _ _ hheard]
  · rw [hheard, allIdentified_iff]
    intro y hy
    rcases (gradePairs_get hgrade y).1 hy with h4 | rfl | rfl
    · cases y
      · rfl
      · rfl
      · exact (hcd h4).1
      · exact (hcd h4).2
    · rfl
    · rfl

end

theorem atFourPair_of {pt : Port} {g : Grade} (hg : pt.train.grade = some g) : pt.atFourPair = fourPairGrade g := by
  simp [Port.atFourPair, hg]

section
variable {a b c d : Pair} {ia ib ic id : Bool} {rc rd : Option IdRecord} {g : Grade} {pt : Port}

/-- The pairs that a two-pair map names missing (R31). -/
theorem invalidPairs_two (hg : pt.train.grade = some g) (h2 : fourPairGrade g = false) :
    invalidPairs (fixResults (identifiedPort a b ia ib rc rd pt)) =
      ⟨!decide ((a = .A ∧ b = .B) ∨ (a = .B ∧ b = .A)), !decide ((a = .A ∧ b = .B) ∨ (a = .B ∧ b = .A)), false, false⟩ := by
  have hab : groupValid (fixResults (identifiedPort a b ia ib rc rd pt)).res .A .B = _ :=
    groupValid_of (x := .A) (y := .B) (a := a) (b := b) rfl rfl
  have h4 : (fixResults (identifiedPort a b ia ib rc rd pt)).atFourPair = false := (atFourPair_of hg).trans h2
  simp only [invalidPairs, hab, h4, Bool.false_and]

theorem invalidPairs_four (hg : pt.train.grade = some g) (h4 : fourPairGrade g = true) :
    invalidPairs (fixResults (identifiedPort a b ia ib (some ⟨c, ic, 2⟩) (some ⟨d, id, 2⟩) pt)) =
      ⟨!decide ((a = .A ∧ b = .B) ∨ (a = .B ∧ b = .A)), !decide ((a = .A ∧ b = .B) ∨ (a = .B ∧ b = .A)),
        !decide ((c = .C ∧ d = .D) ∨ (c = .D ∧ d = .C)), !decide ((c = .C ∧ d = .D) ∨ (c = .D ∧ d = .C))⟩ := by
  have hab : groupValid (fixResults (identifiedPort a b ia ib (some ⟨c, ic, 2⟩) (some ⟨d, id, 2⟩) pt)).res .A .B = _ :=
    groupValid_of (x := .A) (y := .B) (a := a) (b := b) rfl rfl
  have hcd : groupValid (fixResults (identifiedPort a b ia ib (some ⟨c, ic, 2⟩) (some ⟨d, id, 2⟩) pt)).res .C .D = _ :=
    groupValid_of (x := .C) (y := .D) (a := c) (b := d) rfl rfl
  have hf : (fixResults (identifiedPort a b ia ib (some ⟨c, ic, 2⟩) (some ⟨d, id, 2⟩) pt)).atFourPair = true :=
    (atFourPair_of hg).trans h4
  simp only [invalidPairs, hab, hcd, hf, Bool.true_and]

/-- What a valid two-pair map fixes (R30). -/
theorem fixResults_two (hg : pt.train.grade = some g) (h2 : fourPairGrade g = false)
    (hv : (a = .A ∧ b = .B) ∨ (a = .B ∧ b = .A)) :
    (fixResults (identifiedPort a b ia ib rc rd pt)).res = { (identifiedPort a b ia ib rc rd pt).res with
      abCrossed := some (a == .B), cdCrossed := none, polarity := ⟨some ia, some ib, none, none⟩ } := by
  have hc : groupCrossed (identifiedPort a b ia ib rc rd pt).res .A .B = some (a == .B) :=
    groupCrossed_of (by decide) rfl hv
  have h4 : (identifiedPort a b ia ib rc rd pt).atFourPair = false := (atFourPair_of hg).trans h2
  have hp : (identifiedPort a b ia ib rc rd pt).gradePairs = ⟨true, true, false, false⟩ :=
    (Port.gradePairs_of hg).trans (by cases g <;> simp_all [fourPairGrade])
  simp only [fixResults, hc, h4, hp]
  rfl

theorem fixResults_four (hg : pt.train.grade = some g) (h4 : fourPairGrade g = true)
    (hv : (a = .A ∧ b = .B) ∨ (a = .B ∧ b = .A)) (hw : (c = .C ∧ d = .D) ∨ (c = .D ∧ d = .C)) :
    (fixResults (identifiedPort a b ia ib (some ⟨c, ic, 2⟩) (some ⟨d, id, 2⟩) pt)).res =
      { (identifiedPort a b ia ib (some ⟨c, ic, 2⟩) (some ⟨d, id, 2⟩) pt).res with
        abCrossed := some (a == .B), cdCrossed := some (c == .D), polarity := ⟨some ia, some ib, some ic, some id⟩ } := by
  have hab : groupCrossed (identifiedPort a b ia ib (some ⟨c, ic, 2⟩) (some ⟨d, id, 2⟩) pt).res .A .B = some (a == .B) :=
    groupCrossed_of (by decide) rfl hv
  have hcd : groupCrossed (identifiedPort a b ia ib (some ⟨c, ic, 2⟩) (some ⟨d, id, 2⟩) pt).res .C .D = some (c == .D) :=
    groupCrossed_of (by decide) rfl hw
  have hf : (identifiedPort a b ia ib (some ⟨c, ic, 2⟩) (some ⟨d, id, 2⟩) pt).atFourPair = true := (atFourPair_of hg).trans h4
  have hp : (identifiedPort a b ia ib (some ⟨c, ic, 2⟩) (some ⟨d, id, 2⟩) pt).gradePairs = ⟨true, true, true, true⟩ :=
    (Port.gradePairs_of hg).trans (by cases g <;> simp_all [fourPairGrade])
  simp only [fixResults, hab, hcd, hf, hp]
  rfl

end

/-- At a two-pair grade a valid map passes the checks (R35). -/
theorem afterValidMap_two {pt : Port} {g : Grade} (hg : pt.train.grade = some g) (h2 : fourPairGrade g = false) :
    afterValidMap pt = passChecks { pt with res.identified := true } := by
  have h4 : ({ pt with res.identified := true } : Port).atFourPair = false := (atFourPair_of hg).trans h2
  have hb : beginProbing { pt with res.identified := true } = { pt with res.identified := true } := by
    simp [beginProbing, mayProbe, h4]
  simp only [afterValidMap, hb, h4, Bool.false_eq_true, if_false]

/-- At a four-pair grade IDENTIFIED goes out, and probing may begin (R30, R33). -/
theorem afterValidMap_four {pt : Port} {g : Grade} (hg : pt.train.grade = some g) (h4 : fourPairGrade g = true) :
    afterValidMap pt = sendPatterns (beginProbing { pt with res.identified := true }) := by
  have hf : (beginProbing { pt with res.identified := true }).atFourPair = true :=
    (atFourPair_of (by rw [beginProbing_train]; exact hg)).trans h4
  simp only [afterValidMap, hf, if_true]

/-- A port that a failed map leaves: its resolution results alone have changed. -/
theorem fixResults_onlyRes (pt : Port) : fixResults pt = { pt with res := (fixResults pt).res } := rfl

theorem abAssigned (pt : Port) (a : Pair) (h : pt.res.abCrossed = some (a == .B)) :
    assignedPair pt = if a = .B then .B else .A := by
  rw [assignedPair, h]
  cases a <;> rfl

section
variable {p : PortId} {a b c d : Pair} {ia ib ic id : Bool} {rc rd : Option IdRecord} {g : Grade} {s : State}

/-- R31: an invalid map fails the attempt with the pairs of its bad groups, from a state that differs in the results alone. -/
theorem completeIdentification_fails (m : PairSet)
    (hm : invalidPairs (fixResults (identifiedPort a b ia ib rc rd (s.port p))) = m) (hb : m.isEmpty = false) :
    ∃ w, FailsWith p .pairMissing s w ∧ (w.port p).res.missing = some m ∧
      completeIdentification p (s.modPort p (identifiedPort a b ia ib rc rd)) = failAttempt p .pairMissing w ∧
      (NoDownshiftTest p s →
        AttemptFailed p .pairMissing ((s.port p).train.grade.any fourPairGrade) s (failAttempt p .pairMissing w) ∧
          ((failAttempt p .pairMissing w).port p).res.missing = some m) := by
  have hinv := completeIdentification_invalid (p := p) (s := s.modPort p (identifiedPort a b ia ib rc rd))
    (by rw [State.modPort_port_self, hm, hb])
  simp only [State.modPort_port_self, State.modPort_modPort, hm] at hinv
  refine ⟨_, ⟨.modPort s p _, ?_⟩, ?_, hinv, fun hn => ?_⟩
  · rw [State.modPort_port_self]
    exact ⟨rfl, by simp [frontAtFailure, fixResults, identifiedPort], fun _ => rfl⟩
  · rw [State.modPort_port_self]
  · obtain ⟨h1, h2⟩ := failAttempt_missing (s := s) (p := p) hn (f := fun pt =>
      { fixResults (identifiedPort a b ia ib rc rd pt) with
        res := { (fixResults (identifiedPort a b ia ib rc rd pt)).res with missing := some m } }) rfl
    exact ⟨h1, by rw [h2]⟩

end

/-- The port with its map fixed and IDENTIFIED to send (R30). -/
def mappedPort (ident : PerPair (Option IdRecord)) (ab cd : Option Bool) (polarity : PerPair (Option Bool)) (pt : Port) : Port :=
  { pt with res := { pt.res with ident := ident, abCrossed := ab, cdCrossed := cd, polarity := polarity, identified := true } }

section
variable {p : PortId} {a b c d : Pair} {ia ib ic id : Bool} {rc rd : Option IdRecord} {g : Grade} {s : State}

/-- R30, R35: a valid two-pair map passes the checks. -/
theorem completeIdentification_two (hg : (s.port p).train.grade = some g)
    (h2 : fourPairGrade g = false) (hv : (a = .A ∧ b = .B) ∨ (a = .B ∧ b = .A)) :
    completeIdentification p (s.modPort p (identifiedPort a b ia ib rc rd)) = s.modPort p (fun pt => passChecks
      (mappedPort ⟨some ⟨a, ia, 2⟩, some ⟨b, ib, 2⟩, rc, rd⟩ (some (a == .B)) none ⟨some ia, some ib, none, none⟩ pt)) := by
  rw [completeIdentification_valid (by rw [State.modPort_port_self, invalidPairs_two hg h2]; simp [PairSet.isEmpty, hv]),
    State.modPort_modPort]
  refine State.modPort_congr _ _ _ _ ?_
  have hfix : (fixResults (identifiedPort a b ia ib rc rd (s.port p))).train.grade = some g := hg
  rw [afterValidMap_two hfix h2, fixResults_onlyRes, fixResults_two hg h2 hv]
  rfl

/-- R30, R33: a valid four-pair map sends IDENTIFIED, and probing may begin. -/
theorem completeIdentification_four (hg : (s.port p).train.grade = some g)
    (h4 : fourPairGrade g = true) (hv : (a = .A ∧ b = .B) ∨ (a = .B ∧ b = .A)) (hw : (c = .C ∧ d = .D) ∨ (c = .D ∧ d = .C)) :
    completeIdentification p (s.modPort p (identifiedPort a b ia ib (some ⟨c, ic, 2⟩) (some ⟨d, id, 2⟩))) =
      s.modPort p (fun pt => sendPatterns (beginProbing
        (mappedPort ⟨some ⟨a, ia, 2⟩, some ⟨b, ib, 2⟩, some ⟨c, ic, 2⟩, some ⟨d, id, 2⟩⟩ (some (a == .B)) (some (c == .D))
          ⟨some ia, some ib, some ic, some id⟩ pt))) := by
  rw [completeIdentification_valid (by rw [State.modPort_port_self, invalidPairs_four hg h4]; simp [PairSet.isEmpty, hv, hw]),
    State.modPort_modPort]
  refine State.modPort_congr _ _ _ _ ?_
  have hfix : (fixResults (identifiedPort a b ia ib (some ⟨c, ic, 2⟩) (some ⟨d, id, 2⟩) (s.port p))).train.grade = some g := hg
  rw [afterValidMap_four hfix h4, fixResults_onlyRes, fixResults_four hg h4 hv hw]
  rfl

end

/-- When a port whose map is fixed starts probing (R33). -/
theorem mayProbe_mapped {pt : Port} {g : Grade} (hg : pt.train.grade = some g) (h4 : fourPairGrade g = true)
    (hi : pt.res.identified = true) :
    mayProbe pt = ((pt.train.role == some .source && pt.res.partnerIdentified) ||
      (pt.train.role == some .follow && pt.res.partnerProbed)) := by
  rw [mayProbe, atFourPair_of hg, h4, hi]
  cases pt.train.role with
  | none => rfl
  | some r => cases r <;> simp

/-- The first probe is due at once when probing starts (R33, assumption log 30). -/
theorem beginProbing_starts {pt : Port} (h : pt.res.probing = false) (hb : (beginProbing pt).res.probing = true) :
    (beginProbing pt).timers.probeRepeat = ⟨true, 1000, 1000⟩ := by
  by_cases hm : (mayProbe pt && !pt.res.probing && (allQp pt.res).isNone) = true
  · rw [beginProbing, if_pos hm]; rfl
  · rw [beginProbing, if_neg hm, h] at hb; cases hb

theorem linkSignals_of {pt : Port} {g : Grade} (h : pt.train.grade = some g) : linkSignals pt = [.link g (assignedPair pt)] := by
  simp [linkSignals, h]

/-- Settles O26: the valid maps pass or start probing, the invalid ones fail with their bad groups. -/
theorem completedIdentificationFixesMapAndPolarity : Obligations.CompletedIdentificationFixesMapAndPolarity := by
  intro p x letter a b inverted ia ib rc rd g s hr hl hi hg hrec hset
  refine ⟨fun h2 hx => ?_, fun c d ic id h4 hc hd ab cd hab hcd => ?_⟩
  · rw [exec_identificationHearing_completes hr hl hi hg (.inr hx) hrec hset (fun h => by rw [h2] at h; cases h)]
    refine ⟨fun hv => ⟨_, rfl, ?_⟩, fun hv => ?_⟩
    · rw [completeIdentification_two hg h2 hv]
      refine ⟨.modPort s p _, ?_⟩
      rw [State.modPort_port_self]
      have hassigned := abAssigned (mappedPort ⟨some ⟨a, ia, 2⟩, some ⟨b, ib, 2⟩, rc, rd⟩ (some (a == .B)) none
        ⟨some ia, some ib, none, none⟩ (s.port p)) a rfl
      have hlink := linkSignals_of (g := g) (pt := mappedPort ⟨some ⟨a, ia, 2⟩, some ⟨b, ib, 2⟩, rc, rd⟩ (some (a == .B)) none
        ⟨some ia, some ib, none, none⟩ (s.port p)) hg
      have hpairs : (mappedPort ⟨some ⟨a, ia, 2⟩, some ⟨b, ib, 2⟩, rc, rd⟩ (some (a == .B)) none
          ⟨some ia, some ib, none, none⟩ (s.port p)).gradePairs = ⟨true, true, false, false⟩ :=
        (Port.gradePairs_of hg).trans (by cases g <;> simp_all [fourPairGrade])
      obtain ⟨hres, hfront, hstate, htimer, -, -⟩ := passChecks_spec
        (mappedPort ⟨some ⟨a, ia, 2⟩, some ⟨b, ib, 2⟩, rc, rd⟩ (some (a == .B)) none ⟨some ia, some ib, none, none⟩ (s.port p))
      rw [hassigned] at hlink
      rw [hlink, hpairs] at hfront
      rw [hres, hfront, hstate]
      exact ⟨rfl, rfl, rfl, rfl, rfl, by rw [← hr]; rfl, rfl, htimer⟩
    · obtain ⟨w, hw, hmiss, hx, hf⟩ := completeIdentification_fails (p := p) (s := s) (a := a) (b := b) (ia := ia) (ib := ib)
        (rc := rc) (rd := rd) _ (invalidPairs_two hg h2) (by simp [PairSet.isEmpty, hv])
      rw [hx]
      obtain ⟨h1, h3⟩ := hf (.inl (by simp [hg, h2]))
      rw [hg] at h1
      refine ⟨_, rfl, ?_, ?_⟩
      · simpa [h2] using h1
      · simpa [hv] using h3
  · subst hc hd
    obtain rfl : ab = decide ((a = .A ∧ b = .B) ∨ (a = .B ∧ b = .A)) := by rw [Bool.eq_iff_iff, hab, decide_eq_true_iff]
    obtain rfl : cd = decide ((c = .C ∧ d = .D) ∨ (c = .D ∧ d = .C)) := by rw [Bool.eq_iff_iff, hcd, decide_eq_true_iff]
    rw [exec_identificationHearing_completes hr hl hi hg (.inl h4) hrec hset (fun _ => ⟨rfl, rfl⟩)]
    refine ⟨fun hv hw => ⟨_, rfl, ?_⟩, fun hbad => ?_⟩
    · rw [completeIdentification_four hg h4 (hab.1 hv) (hcd.1 hw)]
      refine ⟨.modPort s p _, ?_⟩
      rw [State.modPort_port_self]
      have hmay := mayProbe_mapped (g := g) (pt := mappedPort ⟨some ⟨a, ia, 2⟩, some ⟨b, ib, 2⟩, some ⟨c, ic, 2⟩, some ⟨d, id, 2⟩⟩
        (some (a == .B)) (some (c == .D)) ⟨some ia, some ib, some ic, some id⟩ (s.port p)) hg h4 rfl
      have hpairs : (beginProbing (mappedPort ⟨some ⟨a, ia, 2⟩, some ⟨b, ib, 2⟩, some ⟨c, ic, 2⟩, some ⟨d, id, 2⟩⟩
          (some (a == .B)) (some (c == .D)) ⟨some ia, some ib, some ic, some id⟩ (s.port p))).gradePairs =
          ⟨true, true, true, true⟩ :=
        (Port.gradePairs_of (by rw [beginProbing_train]; exact hg)).trans (by cases g <;> simp_all [fourPairGrade])
      have hres := beginProbing_res (mappedPort ⟨some ⟨a, ia, 2⟩, some ⟨b, ib, 2⟩, some ⟨c, ic, 2⟩, some ⟨d, id, 2⟩⟩
        (some (a == .B)) (some (c == .D)) ⟨some ia, some ib, some ic, some id⟩ (s.port p))
      rw [hmay] at hres
      refine ⟨?_, ?_, ?_, ?_, ?_, ?_, ?_, rfl, ?_, fun h k => beginProbing_starts h k⟩
      · rw [sendPatterns_res, hres]; rfl
      · rw [sendPatterns_res, hres]; rfl
      · rw [sendPatterns_res, hres]; rfl
      · rw [sendPatterns_res, hres]; rfl
      · rw [sendPatterns_res, hres]; rfl
      · rw [sendPatterns_train, beginProbing_train]; rfl
      · simp only [sendPatterns, hpairs, beginProbing_front, hres]; rfl
      · rw [sendPatterns_res, hres, Bool.and_comm]; rfl
    · obtain ⟨w, hw, hmiss, hx, hf⟩ := completeIdentification_fails (p := p) (s := s) (a := a) (b := b) (ia := ia) (ib := ib)
        (rc := some ⟨c, ic, 2⟩) (rd := some ⟨d, id, 2⟩) _ (invalidPairs_four hg h4)
        (by rcases hbad with h | h <;> simp [PairSet.isEmpty, h])
      rw [hx]
      refine ⟨⟨w, hw, hmiss, rfl⟩, fun hn => ?_⟩
      obtain ⟨h1, h3⟩ := hf hn
      refine ⟨_, rfl, ?_, h3⟩
      simpa [hg, h4] using h1

end Sys2Proof.Machine
end

section
/-! PROOFS of O27 to O30: the markers, the probe returns, the listening pairs, and UP. -/

namespace Sys2Proof.Machine

open Sys2Proof

/-! ### The link that completes resolution -/

theorem errorFreeTarget_of {t : Training} {g : Grade} (h : t.grade = some g) :
    errorFreeTarget t.grade = if fourPairGrade g then 40000 else 10000 := by
  rw [h]; rfl

/-- Entry to QUALIFYING, field by field (R15, R29, R32, R56). -/
theorem enterQualifying_spec {pt : Port} {g : Grade} (h : pt.train.grade = some g) :
    (enterQualifying pt).train = { pt.train with
      state := .qualifying, errorFree := ⟨!pt.train.shadowed, 0, if fourPairGrade g then 40000 else 10000⟩ } ∧
    (enterQualifying pt).timers = { TrainTimers.fresh with qualifying := ⟨true, 0, 1000000⟩ } ∧
    (enterQualifying pt).front = { pt.front with launched := [.link g (assignedPair pt)] } ∧
    (enterQualifying pt).res = pt.res := by
  refine ⟨?_, rfl, ?_, rfl⟩
  · rw [← errorFreeTarget_of h]; rfl
  · rw [← linkSignals_of h]; rfl

/-- The pair in use once the crossing is found, and before (R29). -/
theorem assignedPair_found {pt : Port} {b : Bool} (h : pt.res.abCrossed = some b) : assignedPair pt = if b then .B else .A := by
  rw [assignedPair, h]
  cases b <;> rfl

theorem assignedPair_open {pt : Port} (h : pt.res.abCrossed = none) :
    assignedPair pt = if pt.train.crossover = .straight then .A else .B := by
  rw [assignedPair, h]
  cases pt.train.crossover <;> rfl

/-! ### Markers (R33, R35) -/

theorem exec_identifiedMarkerHeard {p : PortId} {s : State} (h : (s.port p).exchanging = true) :
    exec (.identifiedMarkerHeard p) s = .next (s.modPort p (fun pt => beginProbing { pt with res.partnerIdentified := true })) :=
  congrArg Host.Outcome.next (onPort_pos h)

theorem exec_probedMarkerHeard {p : PortId} {s : State} (h : (s.port p).exchanging = true) :
    exec (.probedMarkerHeard p) s = .next (s.modPort p (fun pt => beginProbing { pt with res.partnerProbed := true })) :=
  congrArg Host.Outcome.next (onPort_pos h)

theorem exec_doneMarkerHeard {p : PortId} {s : State} (h : (s.port p).exchanging = true) :
    exec (.doneMarkerHeard p) s = .next (s.modPort p (fun pt => trySucceed { pt with res.partnerDone := true })) :=
  congrArg Host.Outcome.next (onPort_pos h)

/-- Who may probe (R33). -/
theorem mayProbe_eq (pt : Port) :
    mayProbe pt = (pt.train.grade.any fourPairGrade && pt.res.identified &&
      ((pt.train.role == some .source && pt.res.partnerIdentified) ||
        (pt.train.role == some .follow && pt.res.partnerProbed))) := by
  have hne : (Role.source == Role.follow) = false ∧ (Role.follow == Role.source) = false := by decide
  rw [mayProbe, Port.atFourPair]
  cases pt.train.role with
  | none => rfl
  | some r => cases r <;> simp [hne]

/-- Probing starts where it may and a trip is still to be recorded (R33). -/
theorem beginProbing_res_eq (pt : Port) :
    (beginProbing pt).res = { pt.res with
      probing := pt.res.probing || (pt.train.grade.any fourPairGrade && pt.res.identified && (allQp pt.res).isNone &&
        ((pt.train.role == some .source && pt.res.partnerIdentified) || (pt.train.role == some .follow && pt.res.partnerProbed))) } := by
  rw [beginProbing_res, mayProbe_eq, Bool.and_right_comm]

/-- Settles O27: each marker is noted, and probing or the link follows where it was the last thing missing. -/
theorem partnerMarkersStartProbingAndCompleteResolution : Obligations.PartnerMarkersStartProbingAndCompleteResolution := by
  intro p s hr hl
  have he := Port.exchanging_iff.2 ⟨hr, hl⟩
  refine ⟨⟨_, exec_identifiedMarkerHeard he, .modPort s p _, ?_⟩, ⟨_, exec_probedMarkerHeard he, .modPort s p _, ?_⟩,
    fun hc => ?_, fun g hc hg => ⟨_, exec_doneMarkerHeard he, .modPort s p _, ?_⟩⟩
  · rw [State.modPort_port_self]
    refine ⟨beginProbing_train _, ?_⟩
    rw [beginProbing_res_eq]
    simp only [Bool.and_true]
    rfl
  · rw [State.modPort_port_self]
    refine ⟨beginProbing_train _, ?_⟩
    rw [beginProbing_res_eq, Bool.or_comm (_ == some Role.source && _)]
    simp only [Bool.and_true]
    rfl
  · rw [exec_doneMarkerHeard he]
    exact congrArg _ (State.modPort_congr _ _ _ _ (by simp [trySucceed, hc]))
  · have hd : trySucceed { s.port p with res.partnerDone := true } = enterQualifying { s.port p with res.partnerDone := true } :=
      if_pos (by simp [hc])
    rw [State.modPort_port_self, hd]
    obtain ⟨htrain, htimers, hfront, hres⟩ := enterQualifying_spec (pt := { s.port p with res.partnerDone := true }) hg
    refine ⟨htrain, htimers, hfront.trans ?_, hres⟩
    cases hab : (s.port p).res.abCrossed with
    | none => rw [assignedPair_open (pt := { s.port p with res.partnerDone := true }) hab]
    | some b =>
      rw [assignedPair_found (pt := { s.port p with res.partnerDone := true }) hab]
      cases b <;> rfl

/-! ### Probe returns -/

theorem allQp_missing {r : Resolution} {y : Pair} (h : r.qp.get y = none) : allQp r = none := by
  simp only [allQp]
  split
  · next ha hb hc hd => cases y <;> simp_all [PerPair.get]
  · rfl

theorem skewTest_waits {p : PortId} {s : State} (h : allQp (s.port p).res = none) : skewTest p s = s := by
  simp only [skewTest, h]

theorem skewsFailed_res (qp : PerPair Nat) (pt : Port) : (skewsFailed qp pt).res = (skewsTaken qp pt).res := by
  simp only [skewsFailed]; split <;> rfl

/-- What a failed skew test changes of a port is its results and what it has launched. -/
theorem skewsFailed_same {p : PortId} {s : State} (qp : PerPair Nat) (x : Pair) (q : Nat) :
    SameForFailure { s.port p with front := frontAtFailure p .skewLimit s } (skewsFailed qp (tripRecorded x q (s.port p))) := by
  refine ⟨?_, ?_, skewsFailed_front qp x q, ?_, ?_⟩
  · rw [skewsFailed_train]; exact ⟨rfl, rfl, rfl, rfl, rfl⟩
  · rw [skewsFailed_train]; rfl
  · simp only [skewsFailed]; split <;> rfl
  · simp only [skewsFailed]; split <;> rfl

/-- Settles O28: the trip is recorded, and the fourth takes the skew test. -/
theorem probeReturnsRecordQpAndTakeTheSkewTest : Obligations.ProbeReturnsRecordQpAndTakeTheSkewTest := by
  intro p x q s hr hl hp ho hn
  refine ⟨fun hq => ?_, fun y hq hxy hy => ?_, fun a b c d hq hset => ⟨fun g hg hk => ?_, fun hk hnt => ?_⟩⟩
  · exact congrArg Host.Outcome.next (onPort_neg (by simp [Nat.not_le.2 hq]))
  · have hopen : allQp ((s.modPort p (tripRecorded x q)).port p).res = none := by
      refine allQp_missing (y := y) ?_
      rw [State.modPort_port_self]
      simp only [tripRecorded, PerPair.get_set, if_neg hxy, hy]
    rw [exec_probeReturn hr hl hp ho hn hq, skewTest_waits hopen]
    rfl
  · have hpass : (skewsOf ⟨a, b, c, d⟩).toList.any (fun k => decide (s.setup.skewLimit < k)) = false := by
      rw [← Bool.not_eq_true, skewsOf_exceed]
      exact fun ⟨k, hmem, hlt⟩ => absurd (hk k hmem) (Nat.not_le.2 hlt)
    rw [exec_probeReturn hr hl hp ho hn hq, skewTest_passes (allQp_tripRecorded hset) hpass, State.modPort_modPort]
    refine ⟨_, rfl, .modPort s p _, ?_⟩
    rw [State.modPort_port_self]
    obtain ⟨hres, hfront, hstate, htimer, -, -⟩ := passChecks_spec (skewsTaken ⟨a, b, c, d⟩ (tripRecorded x q (s.port p)))
    have hlink := linkSignals_of (g := g) (pt := skewsTaken ⟨a, b, c, d⟩ (tripRecorded x q (s.port p))) hg
    have hpairs : (skewsTaken ⟨a, b, c, d⟩ (tripRecorded x q (s.port p))).gradePairs = _ := Port.gradePairs_of hg
    rw [hlink, hpairs] at hfront
    refine ⟨?_, ?_, ?_, htimer⟩
    · rw [hres]
      simp [skewsTaken, tripRecorded, hset, skewsOf, PerPair.map]
    · rw [hstate, ← hr]; rfl
    · rw [hfront]
      cases hab : (s.port p).res.abCrossed with
      | none =>
        rw [assignedPair_open (pt := skewsTaken ⟨a, b, c, d⟩ (tripRecorded x q (s.port p))) hab]; rfl
      | some k =>
        rw [assignedPair_found (pt := skewsTaken ⟨a, b, c, d⟩ (tripRecorded x q (s.port p))) hab]
        cases k <;> rfl
  · obtain ⟨hfailed, hres⟩ := failAttempt_prepared (p := p) (s := s) (cause := .skewLimit)
      (f := fun pt => { pt with front := frontAtFailure p .skewLimit s })
      (g := fun pt => skewsFailed ⟨a, b, c, d⟩ (tripRecorded x q pt))
      (.inr (by simpa [NoDownshiftTest, skewsFailed_train, tripRecorded] using hnt)) (skewsFailed_same _ x q)
    refine ⟨_, exec_probeReturn_fails hr hl hp ho hn hq hset hk, ?_, ?_, ?_⟩
    · rwa [skewsFailed_train] at hfailed
    · rw [hres, skewsFailed_res]; exact hset
    · rw [hres, skewsFailed_res]; rfl

/-! ### Listening pairs (R32) -/

theorem listenRun_eq (f g : Bool) (t : Timer) :
    listenRun (f && !g) t = if f = true ∧ g = false then (if t.running then t else ⟨true, 0, 2000⟩) else ⟨false, 0, 0⟩ := by
  cases f <;> cases g <;> rfl

/-- Settles O29: the front end notes the signal, the runs follow it, and the first run to end sends the link. -/
theorem listeningPairsQualifyWhenTheyStandAlone : Obligations.ListeningPairsQualifyWhenTheyStandAlone := by
  intro p s
  refine ⟨fun x present front hf => ?_, fun x g hr hl hrun hg => ?_⟩
  · have hset : setSignal x present (s.port p).front = front := by rw [hf]; cases x <;> rfl
    refine ⟨fun hr hl => congrArg Host.Outcome.next (State.modPort_congr _ _ _ _ ?_),
      fun hn => congrArg Host.Outcome.next (State.modPort_congr _ _ _ _ ?_)⟩
    · simp only [hset, Port.listeningIn_iff.2 ⟨hr, hl⟩, if_true, listenRuns, listenRun_eq]
    · have hno : (s.port p).listeningIn = false := by
        rcases hn with h | h <;> simp [Port.listeningIn, Port.isIn, h]
      simp only [hset, hno, Bool.false_eq_true, if_false]
  · have hrun' : (qualifyTimer (s.port p) x).running = true := by rw [← hrun]; cases x <;> rfl
    refine ⟨_, congrArg Host.Outcome.next (onPort_pos (by simp [Port.listeningIn_iff.2 ⟨hr, hl⟩, hrun'])), .modPort s p _, ?_⟩
    obtain ⟨htrain, htimers, hfront, hres⟩ :=
      enterQualifying_spec (pt := { s.port p with res.abCrossed := some (x == .A) }) (g := g) hg
    rw [State.modPort_port_self]
    refine ⟨htrain, hres, hfront.trans ?_, htimers⟩
    rw [assignedPair_found (pt := { s.port p with res.abCrossed := some (x == .A) }) rfl]
    cases x <;> rfl

/-! ### UP (R15, R16) -/

/-- The port as it comes UP without a shadow. -/
def upPort (window : Nat) (pt : Port) : Port :=
  { pt with
    train := { pt.train with state := .up, consecutive := 0, fourPair := 0, runAlerted := false
                             errorFree := { pt.train.errorFree with running := false } }
    timers := TrainTimers.fresh
    watch := { pt.watch with
      condition := .counting, window := ⟨true, 0, window⟩, symbol := 0, idle := 0, margin := 0, silence := ⟨false, 0, 0⟩ } }

theorem exec_errorFreeTarget {p : PortId} {s : State} (hq : (s.port p).train.state = .qualifying)
    (hs : (s.port p).train.shadowed = false) :
    exec (.errorFreeTarget p) s = .next (
      if (s.port p).front.energy then raise (.linkUp p) (s.modPort p (upPort s.setup.window))
      else if (s.criteria p).energyLoss then qualityDrop p .energyLoss (raise (.linkUp p) (s.modPort p (upPort s.setup.window)))
      else (raise (.linkUp p) (s.modPort p (upPort s.setup.window))).modPort p
        (fun pt => { pt with watch.silence := ⟨true, 0, 100000⟩ })) := by
  refine congrArg Host.Outcome.next ((onPort_pos (by simp [Port.isIn, hq, hs])).trans ?_)
  rw [enterUp, energyStatus_counts]
  have hup : s.modPort p (upPort s.setup.window) = s.modPort p (fun pt =>
    { pt with
      train := { pt.train with state := .up, consecutive := 0, fourPair := 0, runAlerted := false
                               errorFree := pt.train.errorFree.pause }
      timers := TrainTimers.fresh
      watch := { pt.watch with
        condition := if pt.train.shadowed then .suspended else .counting
        window := if pt.train.shadowed then Timer.off else Timer.start s.setup.window
        symbol := 0, idle := 0, margin := 0, silence := Timer.off } }) :=
    State.modPort_congr _ _ _ _ (by simp [upPort, hs, Timer.pause, Timer.start, Timer.off])
  rw [hup]
  rfl

/-- A drop counts no failure: counts that are 0 stay 0. -/
theorem qualityDrop_counts (p : PortId) (c : DropCause) (s : State) (h : (s.port p).train.consecutive = 0)
    (h4 : (s.port p).train.fourPair = 0) :
    ((qualityDrop p c s).port p).train.consecutive = 0 ∧ ((qualityDrop p c s).port p).train.fourPair = 0 := by
  by_cases hd : s.setup.diagnose.has p = true
  · by_cases hh : (s.port p).train.state = .held <;>
      simp [qualityDrop, hd, startDropSettle, hold, dropLink, holdPort, dropPort, hh, settleInto, clearAttempt, h, h4]
  · cases he : (s.port p).front.energy <;>
      simp [qualityDrop, hd, reEnter, dropLink, dropPort, portReEntry, he, enterSettling, enterDormant, settleInto, clearAttempt, h, h4]

/-- Settles O30: the port is UP with its watch started; without energy it drops at once or starts the silence timer. -/
theorem errorFreeTargetBringsThePortUp : Obligations.ErrorFreeTargetBringsThePortUp := by
  intro p s hq hs
  refine ⟨fun h => ?_, fun he hc => ?_⟩
  · have honly := (OnlyPortAndEvents.modPort p (upPort s.setup.window) s).trans (.raise p (.linkUp p) _)
    cases he : (s.port p).front.energy with
    | true =>
      refine ⟨_, exec_errorFreeTarget hq hs, ?_⟩
      rw [if_pos he]
      refine ⟨honly, by simp, ?_⟩
      simp [upPort]
    | false =>
      have hc : (s.criteria p).energyLoss = false := h.resolve_left (by simp [he])
      refine ⟨_, exec_errorFreeTarget hq hs, ?_⟩
      rw [he, hc]
      simp only [Bool.false_eq_true, if_false]
      refine ⟨honly.trans (.modPort p _ _), by simp, ?_⟩
      simp [upPort]
  · have hport : (raise (.linkUp p) (s.modPort p (upPort s.setup.window))).port p = upPort s.setup.window (s.port p) := by simp
    obtain ⟨honly, hsum, -, -, -, hcause, -, -, -, -, -, -, -, hstate⟩ :=
      qualityDrop_spec p .energyLoss (raise (.linkUp p) (s.modPort p (upPort s.setup.window))) (by rw [hport]; rfl)
    obtain ⟨hcons, hfour⟩ := qualityDrop_counts p .energyLoss (raise (.linkUp p) (s.modPort p (upPort s.setup.window)))
      (by rw [hport]; rfl) (by rw [hport]; rfl)
    refine ⟨_, exec_errorFreeTarget hq hs, ?_⟩
    rw [he, hc]
    simp only [Bool.false_eq_true, if_false, if_true]
    refine ⟨((OnlyPortAndEvents.modPort p _ s).trans (.raise p _ _)).trans honly, by rw [hsum]; simp, hcause, hcons, hfour, ?_⟩
    have henergy : (upPort s.setup.window (s.port p)).front.energy = false := he
    simp only [hport, raise_setup, State.modPort_setup, henergy, Bool.false_eq_true, if_false] at hstate
    split at hstate
    · next hd => rw [if_pos hd]; exact hstate.1
    · next hd => rw [if_neg hd]; exact hstate.1

end Sys2Proof.Machine
end

section
/-! PROOFS of O31 and O32: MEASURE, and the sweep's advance, start and period. -/

namespace Sys2Proof.Machine

open Sys2Proof

/-! ### Requests served and answered -/

/-- A request that its block answers: the REPORT is placed on the state after it (R171). -/
theorem takeRequest_answered {s : State} (h : RequestReady s) (b : Bool) (payload : List Byte) (serve : State → Served)
    (hf : firstFailure b payload s.station = none) {a : Answer} {u : State} (hs : serve (frameEnded s) = (some a, u)) :
    takeRequest b payload serve s = reply (byteAt payload 0) a u := by
  rw [takeRequest_served h b payload serve hf, serveRequest, hs]

theorem withPort_byteOf (p : PortId) (f : PortId → State → Served) (s : State) : withPort (byteOf p.val) f s = f p s := by
  simp [withPort]

theorem byteOf_port_lt (p : PortId) : (byteOf p.val).toNat < 12 := by rw [byteOf_toNat (by omega)]; exact p.isLt

/-! ### MEASURE -/

/-- A console request in the waiting entry (R65). -/
theorem mergeEntry_console (r : MeasureRequest) (e : Entry) (ho : r.origin = .console) (ht : r.tag = none) :
    mergeEntry r e = { e with
      pairs := e.pairs.union r.pairs, reach := longerReach e.reach r.reach
      averaging := largerAveraging e.averaging r.averaging, intrusive := e.intrusive || r.intrusive
      priority := if e.priority = .background then .normal else e.priority
      origin := if e.priority = .background then .console else e.origin } := by
  obtain ⟨a, b, c, d, i, pr, o, t, st, hd⟩ := e
  cases pr <;> simp [mergeEntry, ho, ht, originPriority, priorityRank]

section
variable {p : PortId} {pairs reach averaging intrusive : Byte} {r : Reach} {via : Via} {s : State}

theorem measure_passes (hv : via.broadcast = false) (hp : s.station.phase = .run) (hr : reachOf reach = some r) :
    firstFailure via.broadcast ([1, byteOf p.val, pairs, reach, averaging, intrusive] ++ via.extra) s.station = none := by
  have := byteOf_port_lt p
  simp [firstFailure, byteAt, kindListed, bytesNeeded, destinationOk, hv, phaseRefusal, hp, codedOk, hr, gradeOk, portOk, portOperand,
    pageOk, this]

theorem exec_measure (hs : RequestReady s) (hv : via.broadcast = false) (hp : s.station.phase = .run) (hr : reachOf reach = some r)
    {a : Answer} {u : State} (hm : measurePort (consoleRequest pairs averaging intrusive r) (averagingAdjusted averaging.toNat) p
      (frameEnded s) = (some a, u)) :
    exec (.measure via (byteOf p.val) pairs reach averaging intrusive) s = .next (reply 1 a u) := by
  refine congrArg Host.Outcome.next (takeRequest_answered hs _ _ _ (measure_passes hv hp hr) ?_)
  rw [serveMeasure, hr]
  exact (withPort_byteOf p _ _).trans hm

end

/-- Settles O31: each condition is a branch of the scheduler's answer. -/
theorem measureIsMergedQueuedOrRefused : Obligations.MeasureIsMergedQueuedOrRefused := by
  intro p pairs reach averaging intrusive r via s hs hv hp hr
  have hheld : heldFor p (frameEnded s) = heldFor p s := rfl
  have hwait : waitingFor p (frameEnded s) = waitingFor p s := rfl
  have hdis : ((frameEnded s).port p).isIn .disabled = (s.port p).isIn .disabled := rfl
  have hqueue : (frameEnded s).queue = s.queue := rfl
  refine ⟨fun h => exec_measure hs hv hp hr ?_, fun h hd => exec_measure hs hv hp hr ?_, fun h hd => ⟨fun e he => ?_,
    fun hw hl => exec_measure hs hv hp hr ?_, fun hw hl => exec_measure hs hv hp hr ?_⟩⟩
  · simp only [measurePort, hheld, h, if_true, refuse]
  · simp only [measurePort, hheld, h, hdis, Port.isIn_iff.2 hd, Bool.false_eq_true, if_false, if_true, refuse]
  all_goals have hd' : (s.port p).isIn .disabled = false := by simpa [Port.isIn] using hd
  · rw [exec_measure (a := .accepted (averagingAdjusted averaging.toNat)) hs hv hp hr
      (by simp only [measurePort, hheld, h, hdis, hd', hwait, he, Bool.false_eq_true, if_false, accept]; rfl)]
    rw [mergeInto, mergeEntry_console _ e rfl rfl]
    rfl
  · simp only [measurePort, hheld, h, hdis, hd', hwait, hw, hqueue, queueCapacity, Nat.not_le.2 hl, Bool.false_eq_true, if_false, accept]
    rfl
  · simp only [measurePort, hheld, h, hdis, hd', hwait, hw, hqueue, queueCapacity, hl, Bool.false_eq_true, if_false, if_true, refuse]

/-! ### The sweep's advance (R71) -/

/-- Port q comes after the cursor. -/
def afterCursor (cursor : Option PortId) (q : PortId) : Bool :=
  match cursor with
  | none => true
  | some c => decide (c < q)

theorem afterCursor_iff {cursor : Option PortId} {q : PortId} : afterCursor cursor q = true ↔ ∀ c, cursor = some c → c < q := by
  cases cursor <;> simp [afterCursor]

theorem portsAfter_eq (ports : PortSet) (cursor : Option PortId) :
    portsAfter ports cursor = allPorts.filter (fun q => ports.has q && afterCursor cursor q) := by
  rw [portsAfter, PortSet.members, List.filter_filter]
  refine List.filter_congr fun q _ => ?_
  rw [Bool.and_comm]
  cases cursor <;> rfl

theorem mem_allPorts (p : PortId) : p ∈ allPorts := by revert p; decide

theorem portsAfter_none {ports : PortSet} {cursor : Option PortId}
    (h : ∀ q, ports.has q = true → ¬∀ c, cursor = some c → c < q) : portsAfter ports cursor = [] := by
  rw [portsAfter_eq, List.filter_eq_nil_iff]
  intro q _
  rw [Bool.and_eq_true, afterCursor_iff]
  exact fun hq => h q hq.1 hq.2

/-- In an ascending list the least element that passes comes first, and those beyond it follow. -/
theorem filter_least {l : List PortId} (hl : l.Pairwise (· < ·)) {f : PortId → Bool} {p : PortId} (hp : p ∈ l) (hf : f p = true)
    (hmin : ∀ q, f q = true → p ≤ q) : l.filter f = p :: l.filter (fun q => f q && decide (p < q)) := by
  induction l with
  | nil => cases hp
  | cons x xs ih =>
    obtain ⟨hx, hxs⟩ := List.pairwise_cons.1 hl
    rcases List.mem_cons.1 hp with rfl | hp
    · rw [List.filter_cons_of_pos hf, List.filter_cons_of_neg (by simp)]
      refine congrArg (p :: ·) (List.filter_congr fun q hq => ?_)
      simp [hx q hq]
    · have hxp : x < p := hx p hp
      have hfx : ¬ f x = true := fun h => absurd (hmin x h) (not_le.2 hxp)
      rw [List.filter_cons_of_neg hfx, List.filter_cons_of_neg (by simp [hfx]), ih hxs hp]

theorem portsAfter_cons {ports : PortSet} {cursor : Option PortId} {p : PortId} (hp : ports.has p = true)
    (hc : ∀ c, cursor = some c → c < p) (hmin : ∀ q, ports.has q = true → (∀ c, cursor = some c → c < q) → p ≤ q) :
    portsAfter ports cursor = p :: portsAfter ports (some p) := by
  rw [portsAfter_eq, portsAfter_eq, filter_least (by decide) (mem_allPorts p) (by rw [hp, afterCursor_iff.2 hc]; rfl)
    (fun q hq => hmin q (Bool.and_eq_true_iff.1 hq).1 (afterCursor_iff.1 (Bool.and_eq_true_iff.1 hq).2))]
  refine congrArg (p :: ·) (List.filter_congr fun q _ => ?_)
  rw [Bool.eq_iff_iff, Bool.and_eq_true, Bool.and_eq_true, Bool.and_eq_true, afterCursor_iff, afterCursor_iff, decide_eq_true_iff]
  exact ⟨fun ⟨⟨h1, _⟩, h3⟩ => ⟨h1, fun c hc => by cases hc; exact h3⟩,
    fun ⟨h1, h2⟩ => ⟨⟨h1, fun c hcc => (hc c hcc).trans (h2 p rfl)⟩, h2 p rfl⟩⟩

/-- A sweep request in the waiting entry (R65). -/
theorem mergeEntry_sweep (f : SweepFields) (tag : Byte) (e : Entry) :
    mergeEntry (sweepRequest f tag) e = { e with
      pairs := ⟨true, true, true, true⟩, reach := longerReach e.reach f.reach
      averaging := largerAveraging e.averaging f.averaging, tag := some tag } := by
  obtain ⟨a, b, c, d, i, pr, o, t, st, hd⟩ := e
  cases pr <;> simp [mergeEntry, sweepRequest, originPriority, priorityRank, union_full]

section
variable {f : SweepFields} {s : State} {p : PortId}

theorem sweepAdvance_of (hf : s.sweep.fields = some f) : sweepAdvance s = sweepOver f (portsAfter f.ports s.sweep.cursor) s := by
  simp only [sweepAdvance, hf]

theorem sweepAdvance_round (hf : s.sweep.fields = some f)
    (hn : ∀ q, f.ports.has q = true → ¬∀ c, s.sweep.cursor = some c → c < q) : sweepAdvance s = endRound f s := by
  rw [sweepAdvance_of hf, portsAfter_none hn, sweepOver]

end

theorem carriesTag_iff {s : State} {e : Entry} (h : s.sweep.fields.isSome = true) :
    carriesTag s e = decide (e.tag = some s.sweep.tag) := by
  rw [carriesTag, h, Bool.and_true, beq_eq_decide]

theorem carriesTag_of_none {s : State} {e : Entry} (h : s.sweep.fields.isSome = false) : carriesTag s e = false := by
  rw [carriesTag, h, Bool.and_false]

/-- What an accepted SWEEP does to the old entries (R70). -/
theorem retireSweep_eq (s : State) :
    retireSweep s = { s with
      queue := if s.sweep.fields.isSome then
          (s.queue.filter (fun e => !(decide (e.tag = some s.sweep.tag) && e.holder.isNone && decide (e.origin = .sweep)))).map
            (fun e => if e.tag = some s.sweep.tag then { e with tag := none } else e)
        else s.queue } := by
  cases h : s.sweep.fields.isSome with
  | true =>
    simp only [retireSweep, carriesTag_iff h, Entry.waiting, decide_eq_true_eq, beq_eq_decide, if_true]
  | false =>
    simp [retireSweep, carriesTag_of_none h]

theorem sweep_passes {hi lo reach averaging period : Byte} {r : Reach} {via : Via} {s : State} (hv : via.broadcast = false)
    (hp : s.station.phase = .run) (hr : reachOf reach = some r) :
    firstFailure via.broadcast ([2, hi, lo, reach, averaging, period] ++ via.extra) s.station = none := by
  simp [firstFailure, byteAt, kindListed, bytesNeeded, destinationOk, hv, phaseRefusal, hp, codedOk, hr, gradeOk, portOk, portOperand,
    pageOk]

/-- Settles O32: the advance by the first port's condition, and what starts and repeats a sweep. -/
theorem sweepsStartAdvanceAndRepeat : Obligations.SweepsStartAdvanceAndRepeat := by
  refine ⟨fun f s hf => ⟨fun hn => ⟨fun h0 => ?_, fun h0 => ?_⟩, fun p hp hc hmin => ?_⟩,
    fun hi lo reach averaging period r via s hs hv hrun hr => ⟨fun hempty => ?_, fun hsome => ?_⟩, fun s hw => ?_⟩
  · rw [sweepAdvance_round hf hn, endRound, if_pos h0]; rfl
  · rw [sweepAdvance_round hf hn, endRound, if_neg h0]; rfl
  · have hx : sweepAdvance s = sweepOver f (p :: portsAfter f.ports (some p)) s := by
      rw [sweepAdvance_of hf, portsAfter_cons hp hc hmin]
    refine ⟨fun hh => ?_, fun e hh hw => ?_, fun hh hw hl => ?_, fun hh hw hl => ?_⟩
    · rw [hx, sweepAdvance_of (f := f) (s := { s with sweep := { s.sweep with cursor := some p } }) hf]
      simp only [sweepOver, hh, if_true]
    · rw [hx]
      simp only [sweepOver, hh, hw, Bool.false_eq_true, if_false, mergeInto, mergeEntry_sweep]
    · rw [hx]
      simp only [sweepOver, hh, hw, queueCapacity, hl, Bool.false_eq_true, if_false, if_true]
      rfl
    · rw [hx]
      simp only [sweepOver, hh, hw, queueCapacity, Nat.not_lt.2 hl, Bool.false_eq_true, if_false]
  · refine congrArg Host.Outcome.next (takeRequest_answered hs _ _ _ (sweep_passes hv hrun hr) ?_)
    simp only [serveSweep, hr, hempty, if_true, refuse]
  · refine congrArg Host.Outcome.next (takeRequest_answered hs _ _ _ (sweep_passes hv hrun hr) ?_)
    simp only [serveSweep, hr, hsome, if_false, accept, startSweep, retireSweep_eq]
    rfl
  · have hb : (s.sweep.status == .waitingPeriod) = true := by rw [hw]; rfl
    exact congrArg Host.Outcome.next (if_pos hb)

end Sys2Proof.Machine
end

section
/-! PROOFS of O33 and O34: the final outcome of an entry, and the cancels. -/

namespace Sys2Proof.Machine

open Sys2Proof

/-! ### The second downshift test (R41) -/

section
variable (p : PortId) (s : State)

theorem secondDownshiftTest_port :
    (secondDownshiftTest p s).port p =
      if (s.port p).train.downshiftCheck then { s.port p with train := { (s.port p).train with
        downshiftCheck := false, fourPair := 0, downshift := pairFaulty (s.port p).train || (s.port p).train.downshift } }
      else s.port p := by
  by_cases hc : (s.port p).train.downshiftCheck = true
  · by_cases hf : pairFaulty (s.port p).train = true <;> simp [secondDownshiftTest, hc, hf, setDownshift, clearFourPair]
  · simp [secondDownshiftTest, hc]

theorem secondDownshiftTest_summary :
    (secondDownshiftTest p s).summary =
      if (s.port p).train.downshiftCheck && pairFaulty (s.port p).train then s.summary.add (.downshift p) else s.summary := by
  by_cases hc : (s.port p).train.downshiftCheck = true
  · by_cases hf : pairFaulty (s.port p).train = true <;> simp [secondDownshiftTest, hc, hf, setDownshift, clearFourPair]
  · simp [secondDownshiftTest, hc]

theorem secondDownshiftTest_only : OnlyPortAndEvents p s (secondDownshiftTest p s) := by
  by_cases hc : (s.port p).train.downshiftCheck = true
  · by_cases hf : pairFaulty (s.port p).train = true
    · simp only [secondDownshiftTest, hc, hf, if_true, setDownshift]
      exact ((OnlyPortAndEvents.modPort p _ s).trans (.modPort p _ _)).trans (.raise p _ _)
    · simp only [secondDownshiftTest, hc, hf, if_true, Bool.false_eq_true, if_false, clearFourPair]
      exact (OnlyPortAndEvents.modPort p _ s).trans (.modPort p _ _)
  · simp only [secondDownshiftTest, hc, Bool.false_eq_true, if_false]
    exact .refl p s

end

theorem OnlyPortAndEvents.setup {p : PortId} {s t : State} (h : OnlyPortAndEvents p s t) : t.setup = s.setup := by rw [h.rest]; rfl
theorem OnlyPortAndEvents.queue {p : PortId} {s t : State} (h : OnlyPortAndEvents p s t) : t.queue = s.queue := by rw [h.rest]; rfl
theorem OnlyPortAndEvents.sweep {p : PortId} {s t : State} (h : OnlyPortAndEvents p s t) : t.sweep = s.sweep := by rw [h.rest]; rfl
theorem OnlyPortAndEvents.chan {p : PortId} {s t : State} (h : OnlyPortAndEvents p s t) (ch : ChannelId) : t.chan ch = s.chan ch := by
  rw [h.rest]; rfl
theorem OnlyPortAndEvents.port_ne {p q : PortId} {s t : State} (h : OnlyPortAndEvents p s t) (hq : q ≠ p) : t.port q = s.port q := by
  rw [h.rest]; exact State.modPort_port_ne s p q (fun _ => t.port p) (Ne.symm hq)

theorem entryFor_some {p : PortId} {s : State} {e : Entry} (h : entryFor p s = some e) : e ∈ s.queue ∧ e.target = p :=
  ⟨List.mem_of_find?_eq_some h, by simpa using List.find?_some h⟩

/-! ### The final outcome (R69) -/

/-- The state once the record store and the second downshift test have acted. -/
def outcomeTaken (p : PortId) (e : Entry) (o : FinalOutcome) (s : State) : State :=
  secondDownshiftTest p (takeOutcome e o (removeEntry p s))

/-- What R69 does before the sweep advances. -/
def entryEnded (p : PortId) (e : Entry) (o : FinalOutcome) (s : State) : State :=
  unhold p (if e.waiting then dropAwaitHold else dropChannelHold) (outcomeTaken p e o s)

section
variable {p : PortId} {e : Entry} {o : FinalOutcome} {s : State}

theorem outcomeTaken_only (ht : e.target = p) :
    OnlyPortAndEvents p { s with queue := withoutTarget p s.queue } (outcomeTaken p e o s) := by
  subst ht
  exact ((OnlyPortAndEvents.modPort _ _ _).trans (.raise _ _ _)).trans (secondDownshiftTest_only _ _)

theorem entryEnded_only (ht : e.target = p) :
    OnlyPortAndEvents p { s with queue := withoutTarget p s.queue } (entryEnded p e o s) :=
  (outcomeTaken_only ht).trans (.modPort _ _ _)

theorem takeOutcome_port (ht : e.target = p) : (takeOutcome e o (removeEntry p s)).port p = storeOutcome e o (s.port p) := by
  subst ht
  rw [takeOutcome, raise_port, State.modPort_port_self]
  rfl

theorem takeOutcome_summary : (takeOutcome e o (removeEntry p s)).summary = s.summary.add (.diagDone e.target) := by
  simp [takeOutcome, removeEntry]

theorem finalOutcome_of (h : entryFor p s = some e) :
    finalOutcome p o s =
      if (e.tag = some s.sweep.tag ∧ s.sweep.fields.isSome) ∨ s.sweep.status = .waitingSpace
      then sweepAdvance (entryEnded p e o s) else entryEnded p e o s := by
  rw [← sweepAfter_carriesTag e s (entryEnded p e o s) (entryEnded_only (entryFor_some h).2).sweep]
  simp only [finalOutcome, h]
  rfl

/-- The port's hold reasons when the entry has gone (R69): CHANNEL or AWAIT is removed. -/
theorem heldBy_eq (h : HoldReasons) :
    (if e.waiting then dropAwaitHold else dropChannelHold) h =
      if e.holder = none then { h with await := false } else { h with channel := false } := by
  cases hh : e.holder <;> simp [Entry.waiting, hh, dropAwaitHold, dropChannelHold]

theorem unholdPort_keeps {code : Nat} {f : HoldReasons → HoldReasons} {pt : Port}
    (h : pt.train.state ≠ .held ∨ f pt.train.holds ≠ ⟨false, false, false⟩) :
    unholdPort code f pt = { pt with train := { pt.train with holds := f pt.train.holds } } :=
  if_neg fun k => h.elim (fun g => g k.1) (fun g => g k.2)

theorem unholdPort_frees {code : Nat} {f : HoldReasons → HoldReasons} {pt : Port} (h : pt.train.state = .held)
    (hf : f pt.train.holds = ⟨false, false, false⟩) : TakesReEntry code pt (unholdPort code f pt) := by
  have hx : unholdPort code f pt = portReEntry code { pt with train := { pt.train with holds := f pt.train.holds } } :=
    if_pos ⟨h, hf⟩
  rw [hx]
  exact portReEntry_spec code { pt with train := { pt.train with holds := f pt.train.holds } }

/-- An outcome that makes a record, and one that makes none (R126, R127). -/
theorem storeOutcome_train : (storeOutcome e o (s.port p)).train = { (s.port p).train with
    health := (storeOutcome e o (s.port p)).train.health } := by
  simp only [storeOutcome]; split <;> rfl

end

/-- Settles O33: the entry's end step by step, and the table of pair health. -/
theorem finalOutcomeEndsAnEntry : Obligations.FinalOutcomeEndsAnEntry := by
  refine ⟨fun p e o s he => ?_, fun h => ⟨rfl, rfl, rfl, rfl, rfl, rfl, rfl, rfl⟩⟩
  obtain ⟨-, ht⟩ := entryFor_some he
  have hport := takeOutcome_port (s := s) (o := o) ht
  have hcheck : (storeOutcome e o (s.port p)).train.downshiftCheck = (s.port p).train.downshiftCheck := by
    rw [storeOutcome_train]
  have hdown : (storeOutcome e o (s.port p)).train.downshift = (s.port p).train.downshift := by rw [storeOutcome_train]
  have hfour : (storeOutcome e o (s.port p)).train.fourPair = (s.port p).train.fourPair := by rw [storeOutcome_train]
  have hv : (outcomeTaken p e o s).port p =
      if (s.port p).train.downshiftCheck then { storeOutcome e o (s.port p) with train := { (storeOutcome e o (s.port p)).train with
        downshiftCheck := false, fourPair := 0
        downshift := pairFaulty (storeOutcome e o (s.port p)).train || (s.port p).train.downshift } }
      else storeOutcome e o (s.port p) := by
    rw [outcomeTaken, secondDownshiftTest_port, hport, hcheck, hdown]
  have hsum : (outcomeTaken p e o s).summary =
      if (s.port p).train.downshiftCheck && pairFaulty (storeOutcome e o (s.port p)).train
      then (s.summary.add (.diagDone p)).add (.downshift p) else s.summary.add (.diagDone p) := by
    rw [outcomeTaken, secondDownshiftTest_summary, hport, hcheck, takeOutcome_summary, ht]
  have hhealth : ((outcomeTaken p e o s).port p).train.health = (storeOutcome e o (s.port p)).train.health := by
    rw [hv]; split <;> rfl
  refine ⟨(outcomeTaken p e o s).port p, entryEnded p e o s, finalOutcome_of he, entryEnded_only ht, ?_, ?_, fun hc => ?_, fun hc => ?_,
    fun h hh => ?_⟩
  · rw [hv]
    cases hc : (s.port p).train.downshiftCheck with
    | true => cases o <;> rfl
    | false =>
      rw [if_neg Bool.false_ne_true, ← hc]
      cases o <;> rfl
  · rw [hhealth]; cases o <;> rfl
  · refine ⟨?_, ?_, ?_⟩
    · rw [hv, hc]; exact hdown
    · rw [hv, hc]; exact hfour
    · exact hsum.trans (by simp [hc])
  · refine ⟨by rw [hv, hc]; rfl, fun hf => ?_, fun h1 h2 => ?_⟩
    · rw [hhealth] at hf
      have hfaulty : pairFaulty (storeOutcome e o (s.port p)).train = true := by simpa [pairFaulty] using hf
      exact ⟨by rw [hv, hc, hfaulty]; rfl, hsum.trans (by simp [hc, hfaulty])⟩
    · rw [hhealth] at h1 h2
      have hsound : pairFaulty (storeOutcome e o (s.port p)).train = false := by simp [pairFaulty, h1, h2]
      exact ⟨by rw [hv, hc, hsound]; rfl, hsum.trans (by simp [hc, hsound])⟩
  · have hup : (entryEnded p e o s).port p = unholdPort s.setup.wakeSettle (if e.waiting then dropAwaitHold else dropChannelHold)
        ((outcomeTaken p e o s).port p) := by
      rw [entryEnded, unhold, State.modPort_port_self, (outcomeTaken_only ht).setup]
    have hkept : ((outcomeTaken p e o s).port p).train.state = (s.port p).train.state ∧
        ((outcomeTaken p e o s).port p).train.holds = (s.port p).train.holds := by
      rw [hv]; split <;> rw [storeOutcome_train] <;> exact ⟨rfl, rfl⟩
    have hholds : (if e.waiting then dropAwaitHold else dropChannelHold) ((outcomeTaken p e o s).port p).train.holds = h := by
      rw [hkept.2, heldBy_eq, hh]
    rw [hup]
    refine ⟨fun hn => ?_, fun hs hn => unholdPort_frees (by rw [hkept.1, hs]) (by rw [hholds, hn])⟩
    rw [unholdPort_keeps (by rw [hkept.1, hholds]; exact hn), hholds]

/-! ### Cancels (R59, R77, R78) -/

section
variable {p : PortId} {s : State}

theorem cancelSettle_idle (h : (s.port p).watch.dropSettle.running = false) : cancelSettle p s = s := by
  simp [cancelSettle, h]

theorem cancelSettle_runs (h : (s.port p).watch.dropSettle.running = true) :
    cancelSettle p s = s.modPort p (fun pt => unholdPort s.setup.wakeSettle dropSettleHold { pt with watch.dropSettle := Timer.off }) := by
  rw [cancelSettle, if_pos h]
  simp only [unhold, stopDropSettle, State.modPort_modPort]
  rfl

theorem cancelSettle_same : SameButPort p s (cancelSettle p s) := by
  cases h : (s.port p).watch.dropSettle.running with
  | true => rw [cancelSettle_runs h]; exact .modPort s p _
  | false => rw [cancelSettle_idle h]; exact (State.modPort_id s p).symm

theorem unholdPort_watch (code : Nat) (f : HoldReasons → HoldReasons) (pt : Port) : (unholdPort code f pt).watch = pt.watch := by
  simp only [unholdPort, portReEntry]
  split
  · split <;> rfl
  · rfl

theorem cancelSettle_stops : ((cancelSettle p s).port p).watch.dropSettle.running = false := by
  cases h : (s.port p).watch.dropSettle.running with
  | true => rw [cancelSettle_runs h, State.modPort_port_self, unholdPort_watch]; rfl
  | false => rw [cancelSettle_idle h]; exact h

/-- The channel that holds the port's measurement, where one channel alone does. -/
theorem channelOf_some {ch : ChannelId} {m : Measurement} (hm : (s.chan ch).meas = some m) (hp : m.port = p)
    (ho : ∀ n, (s.chan (otherChannel ch)).meas = some n → n.port ≠ p) : channelOf p s = some ch := by
  have hother : (s.chan (otherChannel ch)).meas.any (fun n => decide (n.port = p)) = false := by
    cases h : (s.chan (otherChannel ch)).meas with
    | none => rfl
    | some n => simpa using ho n h
  have hthis : (s.chan ch).meas.any (fun n => decide (n.port = p)) = true := by simp [hm, hp]
  fin_cases ch
  · exact if_pos hthis
  · exact (if_neg fun h => Bool.false_ne_true (hother.symm.trans h)).trans
      (if_pos hthis)

theorem channelOf_none (h : ∀ ch m, (s.chan ch).meas = some m → m.port ≠ p) : channelOf p s = none := by
  have hn : ∀ ch, ¬ (s.chan ch).meas.any (fun n => decide (n.port = p)) = true := fun ch => by
    cases hm : (s.chan ch).meas with
    | none => simp
    | some m => simpa using h ch m hm
  simp only [channelOf, if_neg (hn 0), if_neg (hn 1)]

theorem endMatter_waiting {o : FinalOutcome} {x : StopOutcome} (h : waitingFor p s ≠ none) :
    endMatter p o x s = finalOutcome p o s := by
  obtain ⟨e, he⟩ := Option.ne_none_iff_exists'.1 h
  simp only [endMatter, he]

theorem endMatter_held {o : FinalOutcome} {x : StopOutcome} {ch : ChannelId} (h : waitingFor p s = none)
    (hc : channelOf p s = some ch) : endMatter p o x s = stopChannel ch x s := by
  simp only [endMatter, h, hc]

theorem endMatter_nothing {o : FinalOutcome} {x : StopOutcome} (h : waitingFor p s = none) (hc : channelOf p s = none) :
    endMatter p o x s = s := by
  simp only [endMatter, h, hc]

end

/-- The all flag's cancels, one port after another (R78). -/
theorem cancelEach_foldl (taken : State) (l : List PortId) (s : State) :
    cancelEach taken l s =
      l.foldl (fun u q => if taken.queue.any (fun e => e.target = q) then cancelPort q u else cancelSettle q u) s := by
  induction l generalizing s with
  | nil => rfl
  | cons q qs ih => exact ih _

theorem hadEntry_of_targets {s t : State} (h : t.queue.map Entry.target = s.queue.map Entry.target) (q : PortId) :
    t.queue.any (fun e => e.target = q) = s.queue.any (fun e => e.target = q) := by
  have hm : ∀ l : List Entry, l.any (fun e => e.target = q) = (l.map Entry.target).any (fun x => x = q) := fun l => by
    simp [List.any_map, Function.comp_def]
  rw [hm, hm, h]

theorem endSweep_targets (s : State) : (endSweep s).queue.map Entry.target = s.queue.map Entry.target := by
  simp only [endSweep, List.map_map]
  refine List.map_congr_left fun e _ => ?_
  simp only [Function.comp]
  split <;> rfl

/-! ### A station at rest is emptied by the all flag -/

/-- No channel has a measurement, no entry is held and no sweep runs: what a cancel of every port finds. -/
def AtRest (s : State) : Prop :=
  (∀ ch, (s.chan ch).meas = none) ∧ (∀ e ∈ s.queue, e.holder = none) ∧ s.sweep.fields = none

/-- What has been cancelled for the ports of `done`: they have no entry and no drop settle, and nothing joins the queue. -/
def Cancelled (taken : State) (done : List PortId) (u : State) : Prop :=
  AtRest u ∧ (∀ e ∈ u.queue, e ∈ taken.queue ∧ e.target ∉ done) ∧ ∀ q ∈ done, (u.port q).watch.dropSettle.running = false

theorem sweepAdvance_none {s : State} (h : s.sweep.fields = none) : sweepAdvance s = s := by
  simp only [sweepAdvance, h]

theorem finalOutcome_atRest {p : PortId} {o : FinalOutcome} {s : State} (h : s.sweep.fields = none)
    (hw : waitingFor p s ≠ none) : OnlyPortAndEvents p { s with queue := withoutTarget p s.queue } (finalOutcome p o s) := by
  obtain ⟨w, hw⟩ := Option.ne_none_iff_exists'.1 hw
  obtain ⟨hmem, htarget, -⟩ := waitingFor_some hw
  obtain ⟨e, he⟩ : ∃ e, entryFor p s = some e := by
    rw [← Option.ne_none_iff_exists', entryFor, ne_eq, List.find?_eq_none]
    exact fun k => k w hmem (by simpa using htarget)
  have honly := entryEnded_only (e := e) (o := o) (s := s) (entryFor_some he).2
  rw [finalOutcome_of he]
  split
  · rw [sweepAdvance_none (by rw [honly.sweep]; exact h)]; exact honly
  · exact honly

theorem SameButPort.port_ne {p q : PortId} {s t : State} (h : SameButPort p s t) (hq : q ≠ p) : t.port q = s.port q := by
  rw [SameButPort] at h
  rw [h]
  exact State.modPort_port_ne s p q _ (Ne.symm hq)

theorem Cancelled.settle {taken u : State} {done : List PortId} {p : PortId} (hr : AtRest u)
    (hq : ∀ e ∈ u.queue, e ∈ taken.queue ∧ e.target ∉ done ∧ e.target ≠ p)
    (hd : ∀ q ∈ done, q ≠ p → (u.port q).watch.dropSettle.running = false) : Cancelled taken (p :: done) (cancelSettle p u) := by
  obtain ⟨hm, hh, hs⟩ := hr
  have hsame : SameButPort p u (cancelSettle p u) := cancelSettle_same
  have hqueue : (cancelSettle p u).queue = u.queue := by rw [hsame]; rfl
  refine ⟨⟨fun ch => ?_, by rw [hqueue]; exact hh, ?_⟩, fun e he => ?_, fun q hq' => ?_⟩
  · rw [show (cancelSettle p u).chan ch = u.chan ch by rw [hsame]; rfl]; exact hm ch
  · rw [show (cancelSettle p u).sweep = u.sweep by rw [hsame]; rfl]; exact hs
  · rw [hqueue] at he
    obtain ⟨h1, h2, h3⟩ := hq e he
    exact ⟨h1, fun hmem => (List.mem_cons.1 hmem).elim h3 h2⟩
  · by_cases hqp : q = p
    · subst hqp; exact cancelSettle_stops
    · rw [hsame.port_ne hqp]
      exact hd q ((List.mem_cons.1 hq').resolve_left hqp) hqp

/-- A port without an entry: its drop settle alone is ended. -/
theorem Cancelled.settleAlone {taken u : State} {done : List PortId} {p : PortId} (h : Cancelled taken done u)
    (hp : ∀ e ∈ u.queue, e.target ≠ p) : Cancelled taken (p :: done) (cancelSettle p u) := by
  obtain ⟨hr, hq, hd⟩ := h
  exact .settle hr (fun e he => ⟨(hq e he).1, (hq e he).2, hp e he⟩) (fun q hq' _ => hd q hq')

/-- One port of the all flag's cancels. -/
theorem Cancelled.next {taken u : State} {done : List PortId} (p : PortId) (h : Cancelled taken done u) :
    Cancelled taken (p :: done)
      (if taken.queue.any (fun e => e.target = p) then cancelPort p u else cancelSettle p u) := by
  obtain ⟨⟨hm, hh, hs⟩, hq, hd⟩ := id h
  split
  · by_cases hw : waitingFor p u = none
    · have hno : ∀ e ∈ u.queue, e.target ≠ p := no_entry hw
        (List.any_eq_false.2 fun e he => by simp [Entry.waiting, hh e he])
      rw [cancelPort, endMatter_nothing hw (channelOf_none fun ch m hm' => by rw [hm ch] at hm'; cases hm')]
      exact h.settleAlone hno
    · rw [cancelPort, endMatter_waiting hw]
      have honly : OnlyPortAndEvents p { u with queue := withoutTarget p u.queue } (finalOutcome p .cancelled u) :=
        finalOutcome_atRest hs hw
      have hmem : ∀ e ∈ (finalOutcome p .cancelled u).queue, e ∈ u.queue ∧ e.target ≠ p := fun e he => by
        rw [honly.queue] at he; exact (withoutTarget_spec p u.queue e).1 he
      refine .settle ⟨fun ch => by rw [honly.chan]; exact hm ch, fun e he => hh e (hmem e he).1, ?_⟩ (fun e he => ?_) fun q hq' hqp => ?_
      · rw [honly.sweep]; exact hs
      · obtain ⟨h1, h2⟩ := hmem e he
        exact ⟨(hq e h1).1, (hq e h1).2, h2⟩
      · rw [honly.port_ne hqp]; exact hd q hq'
  · next hno =>
    refine h.settleAlone fun e he ht => hno ?_
    exact List.any_eq_true.2 ⟨e, (hq e he).1, by simpa using ht⟩

theorem Cancelled.all {taken u : State} {done : List PortId} (l : List PortId) (h : Cancelled taken done u) :
    Cancelled taken (l.reverse ++ done)
      (l.foldl (fun u q => if taken.queue.any (fun e => e.target = q) then cancelPort q u else cancelSettle q u) u) := by
  induction l generalizing u done with
  | nil => exact h
  | cons p ps ih =>
    have := ih (h.next p)
    simpa using this

section
variable {p : PortId} {port : Byte} {other : BitVec 6} {via : Via} {s : State}

theorem cancelFlags_all (sweep all : Bool) : (cancelFlags other sweep all)[0] = all := by
  revert other sweep all
  decide

theorem cancel_passes (sweep : Bool) :
    firstFailure via.broadcast ([3, byteOf p.val, cancelFlags other sweep false] ++ via.extra) s.station = none := by
  have := byteOf_port_lt p
  simp [firstFailure, byteAt, kindListed, bytesNeeded, destinationOk, phaseRefusal, codedOk, gradeOk, portOk, portOperand, pageOk,
    cancelFlags_all, this]

theorem cancelAll_passes (sweep : Bool) :
    firstFailure via.broadcast ([3, port, cancelFlags other sweep true] ++ via.extra) s.station = none := by
  simp [firstFailure, byteAt, kindListed, bytesNeeded, destinationOk, phaseRefusal, codedOk, gradeOk, portOk, portOperand, pageOk,
    cancelFlags_all]

theorem exec_cancel (hs : RequestReady s) :
    exec (.cancel via (byteOf p.val) other) s = .next (reply 3 (.accepted false) (react (cancelPort p (frameEnded s)))) :=
  congrArg Host.Outcome.next (takeRequest_answered hs _ _ _ (cancel_passes false) (withPort_byteOf p _ _))

theorem exec_cancelAll (hs : RequestReady s) :
    exec (.cancelAll via port other) s = .next (reply 3 (.accepted false) (react
      (allPorts.foldl (fun u q => if s.queue.any (fun e => e.target = q) then cancelPort q u else cancelSettle q u)
        (frameEnded s)))) := by
  refine congrArg Host.Outcome.next (takeRequest_answered hs _ _ _ (cancelAll_passes false) ?_)
  rw [serveCancelAll, cancelAllPorts, cancelEach_foldl]
  rfl

theorem exec_cancelSweep (hs : RequestReady s) :
    exec (.cancelSweep via false (byteOf p.val) other) s =
      .next (reply 3 (.accepted false) (react (cancelPort p (endSweep (frameEnded s))))) := by
  refine congrArg Host.Outcome.next (takeRequest_answered hs _ _ _ (cancel_passes true) ?_)
  rw [serveCancelSweep, if_neg Bool.false_ne_true]
  exact withPort_byteOf p _ _

theorem exec_cancelSweepAll (hs : RequestReady s) :
    exec (.cancelSweep via true port other) s = .next (reply 3 (.accepted false) (react
      (allPorts.foldl (fun u q => if s.queue.any (fun e => e.target = q) then cancelPort q u else cancelSettle q u)
        (endSweep (frameEnded s))))) := by
  refine congrArg Host.Outcome.next (takeRequest_answered hs _ _ _ (cancelAll_passes true) ?_)
  simp only [serveCancelSweep, if_true, serveCancelAll, cancelAllPorts, cancelEach_foldl,
    hadEntry_of_targets (endSweep_targets (frameEnded s))]
  rfl

end

/-- Settles O34: each cancel ends the waiting entry, stops the channel, or does nothing, and then the drop settle. -/
theorem cancelsEndWhatStandsForAPort : Obligations.CancelsEndWhatStandsForAPort := by
  refine ⟨fun p s => ⟨fun hw => ?_, fun ch m hw hm hp ho => ?_, fun hw hm => ?_, cancelSettle_idle, fun hr => ⟨cancelSettle_same, fun h hh => ?_⟩⟩,
    fun via p port other s w hs hW => ?_⟩
  · rw [cancelPort, endMatter_waiting hw]
  · rw [cancelPort, endMatter_held hw (channelOf_some hm hp ho)]
  · rw [cancelPort, endMatter_nothing hw (channelOf_none hm)]
  · rw [cancelSettle_runs hr, State.modPort_port_self]
    refine ⟨fun hn => ?_, fun hheld hn => unholdPort_frees hheld (by rw [← hn, hh]; rfl)⟩
    rw [unholdPort_keeps (by rw [show dropSettleHold (s.port p).train.holds = h by rw [hh]; rfl]; exact hn), hh]
    rfl
  · subst hW
    refine ⟨exec_cancel hs, exec_cancelAll hs, exec_cancelSweep hs, exec_cancelSweepAll hs, fun hm hh hf => ?_⟩
    obtain ⟨-, hq, hd⟩ := Cancelled.all (taken := frameEnded s) (done := []) allPorts
      (u := frameEnded s) ⟨⟨hm, hh, hf⟩, fun e he => ⟨he, List.not_mem_nil⟩, fun q hq => by cases hq⟩
    refine ⟨_, exec_cancelAll hs, List.eq_nil_iff_forall_not_mem.2 fun e he => (hq e he).2 ?_, fun q => hd q ?_⟩
    · simpa using mem_allPorts e.target
    · simpa using mem_allPorts q

end Sys2Proof.Machine
end

section
/-! PROOF of O36: RESTART, RESTART_FULL and FORCE. -/

namespace Sys2Proof.Machine

open Sys2Proof

/-- What RESTART, RESTART_FULL and FORCE change of a port's training fields: the forced grade and downshift, each read from the fields
as they were alone. -/
structure RestartFields (f : Training → Training) : Prop where
  only : ∀ t, f t = { t with forced := (f t).forced, downshift := (f t).downshift }
  forced : ∀ t u : Training, t.forced = u.forced → (f t).forced = (f u).forced
  downshift : ∀ t u : Training, t.downshift = u.downshift → (f t).downshift = (f u).downshift

theorem RestartFields.id : RestartFields id := ⟨fun _ => rfl, fun _ _ h => h, fun _ _ h => h⟩
theorem RestartFields.clearForce : RestartFields Machine.clearForce := ⟨fun _ => rfl, fun _ _ _ => rfl, fun _ _ _ => rfl⟩
theorem RestartFields.force (g : Grade) : RestartFields (fun t => { t with forced := some g }) :=
  ⟨fun _ => rfl, fun _ _ _ => rfl, fun _ _ h => h⟩

section
variable {p : PortId} {f : Training → Training} {via : Via} {g : Grade} {s : State}

/-! ### The restart itself (R23, R27) -/

theorem restartWith_disabled (hp : s.station.phase = .run) (h : (s.port p).train.state = .disabled) :
    restartWith f p s = refuse .portDisabled s := by simp [restartWith, hp, h]

theorem restartWith_held (hp : s.station.phase = .run) (h : (s.port p).train.state = .held) :
    restartWith f p s = refuse .busy s := by simp [restartWith, hp, h]

theorem restartWith_runs (hp : s.station.phase = .run) (hd : (s.port p).train.state ≠ .disabled) (hh : (s.port p).train.state ≠ .held) :
    restartWith f p s = accept false (toSettling p (changeTrain p (fun t => f (clearCounts t)) (dropIfUp p s))) := by
  simp only [restartWith, hp, if_true]

theorem restartWith_else (hp : s.station.phase ≠ .run) :
    restartWith f p s = if wouldDisable p s then refuse .portDisabled s else accept false (changeTrain p (fun t => f (clearCounts t)) s) :=
  if_neg hp

/-- The port that a restart settles. -/
theorem toSettling_free (hu : (s.port p).train.state ≠ .up) :
    toSettling p (changeTrain p (fun t => f (clearCounts t)) (dropIfUp p s)) =
      s.modPort p (fun pt => enterSettling s.setup.wakeSettle { pt with train := f (clearCounts pt.train) }) := by
  have hd : dropIfUp p s = s := if_neg (by simpa [Port.isIn] using hu)
  rw [hd]
  simp only [toSettling, changeTrain, State.modPort_modPort, State.modPort_setup]

/-- An UP port drops first, with cause CONSOLE (R17). -/
theorem toSettling_up (hu : (s.port p).train.state = .up) :
    toSettling p (changeTrain p f (dropIfUp p s)) = (raise (.linkDown p) (s.modPort p (dropPort .console))).modPort p
      (fun pt => enterSettling s.setup.wakeSettle { pt with train := f pt.train }) := by
  have hd : dropIfUp p s = dropLink p .console s := if_pos (Port.isIn_iff.2 hu)
  rw [hd]
  simp only [toSettling, changeTrain, dropLink, State.modPort_modPort, State.modPort_setup, raise_setup]

theorem wouldDisable_iff : wouldDisable p s = true ↔ (s.port p).train.consoleDisabled = true ∨ s.unserved p = true := by
  rw [wouldDisable, Bool.or_eq_true, or_comm]

/-! ### The three requests -/

theorem train_passes {sub : Byte} {rest : List Byte} (hv : via.broadcast = false) (hs : sub.toNat ≤ 5)
    (hn : trainBytes sub ≤ 3 + rest.length) (hg : sub = 2 → rest.getD 0 0 = 1 ∨ rest.getD 0 0 = 2)
    (hr : sub = 3 → (rolePrefOf (rest.getD 1 0)).isSome = true) :
    firstFailure via.broadcast ([4, byteOf p.val, sub] ++ rest) s.station = none := by
  have hp := byteOf_port_lt p
  have hlen : ¬ rest.length + 1 + 1 + 1 < trainBytes sub := by omega
  have hneed : rest.length + 1 + 1 + 1 < 3 ↔ False := by simp
  have hgrade : gradeOk (4#8 :: byteOf p.val :: sub :: rest) = true := by
    by_cases h2 : sub = 2#8
    · rcases hg h2 with h | h <;> simp_all [gradeOk, byteAt]
    · simp [gradeOk, byteAt, h2]
  have hcoded : codedOk (4#8 :: byteOf p.val :: sub :: rest) = true := by
    by_cases h3 : sub = 3#8
    · simpa [codedOk, byteAt, h3] using hr h3
    · simp [codedOk, byteAt, hs, h3]
  simp [firstFailure, hgrade, hcoded, byteAt, kindListed, bytesNeeded, hlen, hneed, destinationOk, hv, phaseRefusal, portOk,
    portOperand, pageOk, hp]

/-- A request for one restart is answered as the restart itself is. -/
def AnsweredBy (c : Instr) (serve : State → Served) (s : State) : Prop :=
  ∀ a u, serve (frameEnded s) = (some a, u) → exec c s = .next (reply 4 a u)

theorem restart_answered (hs : RequestReady s) (hv : via.broadcast = false) :
    AnsweredBy (.restart via (byteOf p.val)) (restartWith id p) s := fun a u hx =>
  congrArg Host.Outcome.next (takeRequest_answered hs _ _ _
    (train_passes (sub := 0) hv (by decide) (by simp [trainBytes]) (fun h => absurd h (by decide))
      (fun h => absurd h (by decide)))
    ((withPort_byteOf p _ _).trans hx))

theorem restartFull_answered (hs : RequestReady s) (hv : via.broadcast = false) :
    AnsweredBy (.restartFull via (byteOf p.val)) (restartWith clearForce p) s := fun a u hx =>
  congrArg Host.Outcome.next (takeRequest_answered hs _ _ _
    (train_passes (sub := 1) hv (by decide) (by simp [trainBytes]) (fun h => absurd h (by decide))
      (fun h => absurd h (by decide)))
    ((withPort_byteOf p _ _).trans hx))

theorem gradeOf_gradeCode (g : Grade) : gradeOf (gradeCode g) = some g := by cases g <;> rfl

theorem gradeCode_two (h : g = .G1 ∨ g = .G2) : gradeCode g = 1 ∨ gradeCode g = 2 := by
  rcases h with rfl | rfl
  · exact .inl rfl
  · exact .inr rfl

theorem force_answered (hs : RequestReady s) (hv : via.broadcast = false) (hg : g = .G1 ∨ g = .G2) :
    AnsweredBy (.force via (byteOf p.val) (gradeCode g)) (forcePort g p) s := fun a u hx => by
  refine congrArg Host.Outcome.next (takeRequest_answered hs _ _ _
    (train_passes (sub := 2) (rest := gradeCode g :: via.extra) hv (by decide)
      (by simp [trainBytes]; omega) (fun _ => gradeCode_two hg) (fun h => absurd h (by decide))) ?_)
  rw [serveForce, gradeOf_gradeCode]
  exact (withPort_byteOf p _ _).trans hx

/-- A FORCE of an offered two-pair grade is the restart with that grade (R24). -/
theorem forcePort_offered (hg : g = .G1 ∨ g = .G2) (ho : (s.port p).train.offerMask.has g = true) :
    forcePort g p s = restartWith (fun t => { t with forced := some g }) p s := by
  have h2 : fourPairGrade g = false := by rcases hg with rfl | rfl <;> rfl
  by_cases hw : s.station.phase ≠ .run ∧ wouldDisable p s = true
  · rw [forcePort, if_pos hw, restartWith_else hw.1, if_pos hw.2]
  · rw [forcePort, if_neg hw, h2, ho, if_neg (by decide)]

theorem forcePort_refused (h : s.station.phase = .run ∨ wouldDisable p s = false)
    (ho : (s.port p).train.offerMask.has g = false) : forcePort g p s = refuse .badGrade s := by
  rw [forcePort, if_neg (by rintro ⟨h1, h2⟩; rcases h with h | h <;> simp_all), if_pos (by simp [ho])]

/-- What the three requests do by the state of the port and the phase of the station. -/
theorem restart_cases {c : Instr} (hf : RestartFields f) (hc : AnsweredBy c (restartWith f p) s) :
    (s.station.phase = .run →
      ((s.port p).train.state = .disabled → exec c s = .next (reply 4 (.refused .portDisabled) (frameEnded s))) ∧
      ((s.port p).train.state = .held → exec c s = .next (reply 4 (.refused .busy) (frameEnded s))) ∧
      ((s.port p).train.state ≠ .disabled → (s.port p).train.state ≠ .held → (s.port p).train.state ≠ .up →
        ∃ u, exec c s = .next (reply 4 (.accepted false) u) ∧ SameButPort p (frameEnded s) u ∧
          EntersSettling s.setup.wakeSettle
            { s.port p with
              train := f { (s.port p).train with consecutive := 0, fourPair := 0, runAlerted := false } } (u.port p)) ∧
      ((s.port p).train.state = .up →
        ∃ u, exec c s = .next (reply 4 (.accepted false) u) ∧ OnlyPortAndEvents p (frameEnded s) u ∧
          u.summary = s.summary.add (.linkDown p) ∧ (u.port p).train.state = .settling ∧
          (u.port p).train.lastDrop = some .console ∧ (u.port p).train.consecutive = 0 ∧
          (u.port p).train.fourPair = 0 ∧ (u.port p).watch.condition = .off ∧
          (u.port p).train.forced = (f (s.port p).train).forced ∧
          (u.port p).train.downshift = (f (s.port p).train).downshift ∧
          (u.port p).store = { (s.port p).store with drops := countDrop (s.port p).store.drops .console })) ∧
    (s.station.phase ≠ .run →
      (((s.port p).train.consoleDisabled = true ∨ s.unserved p = true) →
        exec c s = .next (reply 4 (.refused .portDisabled) (frameEnded s))) ∧
      ((s.port p).train.consoleDisabled = false → s.unserved p = false →
        exec c s = .next (reply 4 (.accepted false) ((frameEnded s).modPort p (fun pt =>
          { pt with train := f { pt.train with consecutive := 0, fourPair := 0, runAlerted := false } }))))) := by
  refine ⟨fun hr => ⟨fun hd => hc _ _ (restartWith_disabled hr hd), fun hh => hc _ _ (restartWith_held hr hh),
    fun hd hh hu => ?_, fun hu => ?_⟩, fun hr => ⟨fun hw => hc _ _ ?_, fun hw1 hw2 => hc _ _ ?_⟩⟩
  · refine ⟨_, hc _ _ (restartWith_runs hr hd hh), ?_⟩
    rw [toSettling_free (s := frameEnded s) hu]
    refine ⟨.modPort _ p _, ?_⟩
    rw [State.modPort_port_self]
    exact enterSettling_spec _ _
  · have hd : (s.port p).train.state ≠ .disabled := by rw [hu]; decide
    have hh : (s.port p).train.state ≠ .held := by rw [hu]; decide
    refine ⟨_, hc _ _ (restartWith_runs hr hd hh), ?_⟩
    rw [toSettling_up (f := fun t => f (clearCounts t)) (s := frameEnded s) hu]
    refine ⟨((OnlyPortAndEvents.modPort p _ _).trans (.raise p _ _)).trans (.modPort p _ _), by simp; rfl, ?_⟩
    have hcleared := hf.only (clearCounts (dropPort .console (s.port p)).train)
    simp only [State.modPort_port_self, raise_port]
    refine ⟨rfl, ?_, ?_, ?_, rfl, hf.forced _ _ rfl, hf.downshift _ _ rfl, rfl⟩
    · exact congrArg Training.lastDrop hcleared
    · exact congrArg Training.consecutive hcleared
    · exact congrArg Training.fourPair hcleared
  · rw [restartWith_else (s := frameEnded s) hr, if_pos ((wouldDisable_iff (s := frameEnded s)).2 hw)]; rfl
  · rw [restartWith_else (s := frameEnded s) hr, if_neg]
    · rfl
    · rw [wouldDisable_iff]; rintro (h | h)
      · rw [show ((frameEnded s).port p).train.consoleDisabled = false from hw1] at h; cases h
      · rw [show (frameEnded s).unserved p = false from hw2] at h; cases h

end

/-- Settles O36: the three requests are one restart that changes fields. -/
theorem restartsAndForceGoToSettling : Obligations.RestartsAndForceGoToSettling := by
  intro via p g s hs hv
  refine ⟨fun c f forced hmem hg => ?_, fun h hw h2 ho => ?_⟩
  · simp only [List.mem_cons, Prod.mk.injEq, List.not_mem_nil, or_false] at hmem
    rcases hmem with ⟨rfl, rfl, rfl⟩ | ⟨rfl, rfl, rfl⟩ | ⟨rfl, rfl, rfl⟩
    · exact restart_cases .id (restart_answered hs hv)
    · exact restart_cases .clearForce (restartFull_answered hs hv)
    · obtain ⟨h2, ho⟩ := hg rfl
      refine restart_cases (.force g) fun a u hx => force_answered hs hv h2 a u ?_
      rw [forcePort_offered (s := frameEnded s) h2 ho, hx]
  · refine force_answered hs hv h2 _ _ (forcePort_refused (s := frameEnded s) ?_ ho)
    refine hw.imp id fun ⟨h3, h4⟩ => ?_
    rw [← Bool.not_eq_true, wouldDisable_iff]
    rintro (h | h)
    · rw [show ((frameEnded s).port p).train.consoleDisabled = false from h3] at h; cases h
    · rw [show (frameEnded s).unserved p = false from h4] at h; cases h

end Sys2Proof.Machine
end

section
/-! PROOF of O37: OFFER, ENABLE, DISABLE and RESET PORT. -/

namespace Sys2Proof.Machine

open Sys2Proof

section
variable {p : PortId} {via : Via} {s : State}

/-! ### OFFER (R25) -/

theorem offer_answered {grades pref : Byte} {r : RolePref} (hs : RequestReady s) (hv : via.broadcast = false)
    (hr : rolePrefOf pref = some r) :
    AnsweredBy (.offer via (byteOf p.val) grades pref) (offerPort (gradeSetOf grades) r p) s := fun a u hx => by
  refine congrArg Host.Outcome.next (takeRequest_answered hs _ _ _
    (train_passes (sub := 3) (rest := grades :: pref :: via.extra) hv (by decide) (by simp [trainBytes]; omega)
      (fun h => absurd h (by decide)) (fun _ => by simp [hr])) ?_)
  rw [serveOffer, hr]
  exact (withPort_byteOf p _ _).trans hx

theorem offerPort_empty {grades : GradeSet} {r : RolePref} (h : grades.isEmpty = true) :
    offerPort grades r p s = refuse .badGrade s := if_pos h

theorem offerPort_keeps {grades : GradeSet} {r : RolePref} (h : grades.isEmpty = false)
    (hk : offerKeepsState (s.port p).train.state = true) :
    offerPort grades r p s = accept false (changeTrain p (offerFields grades r) s) := by
  rw [offerPort, h, hk]; rfl

theorem offerPort_settles {grades : GradeSet} {r : RolePref} (h : grades.isEmpty = false)
    (hk : offerKeepsState (s.port p).train.state = false) :
    offerPort grades r p s = accept false (toSettling p (changeTrain p (offerFields grades r) (dropIfUp p s))) := by
  rw [offerPort, h, hk]; rfl

/-! ### ENABLE and DISABLE (R26) -/

theorem enable_answered (hs : RequestReady s) (hv : via.broadcast = false) :
    AnsweredBy (.enable via (byteOf p.val)) (enablePort p) s := fun a u hx =>
  congrArg Host.Outcome.next (takeRequest_answered hs _ _ _
    (train_passes (sub := 4) hv (by decide) (by simp [trainBytes]) (fun h => absurd h (by decide)) (fun h => absurd h (by decide)))
    ((withPort_byteOf p _ _).trans hx))

theorem disable_answered (hs : RequestReady s) (hv : via.broadcast = false) :
    AnsweredBy (.disable via (byteOf p.val)) (disablePort p) s := fun a u hx =>
  congrArg Host.Outcome.next (takeRequest_answered hs _ _ _
    (train_passes (sub := 5) hv (by decide) (by simp [trainBytes]) (fun h => absurd h (by decide)) (fun h => absurd h (by decide)))
    ((withPort_byteOf p _ _).trans hx))

/-- The port of a DISABLE that leaves its state. -/
def disabledPort (pt : Port) : Port := enterDisabled { pt with watch.dropSettle := Timer.off }

/-- The state in which a DISABLE leaves the port, before its measurement ends. -/
def disabledState (p : PortId) (s : State) : State :=
  (dropIfUp p (changeTrain p (fun t => { t with consoleDisabled := true }) s)).modPort p disabledPort

theorem disableNow_eq :
    disableNow p (changeTrain p (fun t => { t with consoleDisabled := true }) s) = disabledState p s := by
  simp only [disableNow, stopDropSettle, State.modPort_modPort]
  rfl

theorem dropIfUp_only : OnlyPortAndEvents p s (dropIfUp p s) := by
  simp only [dropIfUp]; split
  · exact (OnlyPortAndEvents.modPort p _ s).trans (.raise p _ _)
  · exact .refl p s

theorem dropIfUp_summary :
    (dropIfUp p s).summary = if (s.port p).train.state = .up then s.summary.add (.linkDown p) else s.summary := by
  simp only [dropIfUp, Port.isIn_iff]; split <;> simp [dropLink]

/-- A drop of the CONSOLE keeps what the console itself sets. -/
theorem dropIfUp_consoleDisabled : ((dropIfUp p s).port p).train.consoleDisabled = (s.port p).train.consoleDisabled := by
  simp only [dropIfUp]; split <;> simp [dropLink, dropPort]

theorem disabledState_only : OnlyPortAndEvents p s (disabledState p s) :=
  ((OnlyPortAndEvents.modPort p _ s).trans dropIfUp_only).trans (.modPort p _ _)

theorem disabledState_summary :
    (disabledState p s).summary = if (s.port p).train.state = .up then s.summary.add (.linkDown p) else s.summary := by
  simp only [disabledState, State.modPort_summary, dropIfUp_summary, changeTrain, State.modPort_port_self]

theorem disabledState_port : ((disabledState p s).port p).train.state = .disabled ∧
    ((disabledState p s).port p).train.consoleDisabled = true ∧ AttemptCleared ((disabledState p s).port p).train ∧
    ((disabledState p s).port p).train.holds = ⟨false, false, false⟩ ∧
    ((disabledState p s).port p).watch.dropSettle.running = false := by
  rw [disabledState, State.modPort_port_self]
  refine ⟨rfl, ?_, ⟨rfl, rfl, rfl, rfl, rfl⟩, rfl, rfl⟩
  refine dropIfUp_consoleDisabled.trans ?_
  rw [changeTrain, State.modPort_port_self]

theorem disablePort_stays (h : (s.port p).train.state = .disabled ∨ (s.port p).train.state = .offline) :
    disablePort p s = accept false (changeTrain p (fun t => { t with consoleDisabled := true }) s) :=
  if_pos (by simpa [Port.isIn] using h)

theorem disablePort_leaves (hd : (s.port p).train.state ≠ .disabled) (ho : (s.port p).train.state ≠ .offline) :
    disablePort p s = accept false (react (endMatter p .portDisabled .portDisabled (disabledState p s))) := by
  rw [← disableNow_eq]
  exact if_neg (by simp [Port.isIn, hd, ho])

/-! ### The measurement that a request ends (R79) -/

theorem OnlyPortAndEvents.waitingFor {t : State} (h : OnlyPortAndEvents p s t) (q : PortId) :
    Machine.waitingFor q t = Machine.waitingFor q s := by
  simp only [Machine.waitingFor, h.queue]

/-- The end of a measurement by a matter of three cases, read in the state before the port was changed. -/
theorem endsMatter_of {u waiting : State} {stop : StopOutcome} {answers : State → Prop} {matter : State}
    (hu : OnlyPortAndEvents p (frameEnded s) u) (ha : answers matter)
    (hn : waitingFor p u = none → channelOf p u = none → matter = u)
    (hw : waitingFor p u ≠ none → matter = waiting)
    (hc : ∀ ch, waitingFor p u = none → channelOf p u = some ch → matter = stopChannel ch stop u) :
    EndsMatter p s u waiting stop answers := by
  have hwait : waitingFor p u = waitingFor p s := hu.waitingFor p
  have hchan : ∀ ch, u.chan ch = s.chan ch := hu.chan
  refine ⟨fun h1 h2 => ?_, fun h1 => ?_, fun ch m h1 h2 h3 h4 => ?_⟩
  · rw [← hn (hwait.trans h1) (channelOf_none fun ch m hm => h2 ch m (by rw [← hchan, hm]))]; exact ha
  · rw [← hw (by rwa [hwait])]; exact ha
  · rw [← hc ch (hwait.trans h1) (channelOf_some (m := m) (by rw [hchan, h2]) h3 (fun n hm => h4 n (by rw [← hchan, hm])))]
    exact ha

/-! ### RESET PORT (R28) -/

theorem resetPort_passes (hv : via.broadcast = false) :
    firstFailure via.broadcast ([9, 0, byteOf p.val] ++ via.extra) s.station = none := by
  have := byteOf_port_lt p
  simp [firstFailure, byteAt, kindListed, bytesNeeded, destinationOk, hv, phaseRefusal, codedOk, gradeOk, portOk, portOperand, pageOk,
    this]

/-- The state in which a RESET PORT leaves the port, before its measurement ends. -/
def portResetState (p : PortId) (s : State) : State :=
  (resetLinkDown p s).modPort p (fun pt => resetReEntry s.setup.wakeSettle (portReset pt))

theorem exec_resetPort (hs : RequestReady s) (hv : via.broadcast = false) :
    exec (.resetPort via (byteOf p.val)) s =
      .next (reply 9 (.accepted false) (react (resetMatter p (portResetState p (frameEnded s))))) :=
  congrArg Host.Outcome.next (takeRequest_answered hs _ _ _ (resetPort_passes hv) (withPort_byteOf p _ _))

theorem portResetState_only : OnlyPortAndEvents p s (portResetState p s) := by
  refine OnlyPortAndEvents.trans ?_ (.modPort p _ _)
  simp only [resetLinkDown]; split
  · exact .raise p _ s
  · exact .refl p s

theorem portResetState_summary :
    (portResetState p s).summary = if (s.port p).train.state = .up then s.summary.add (.linkDown p) else s.summary := by
  simp only [portResetState, State.modPort_summary, resetLinkDown, Port.isIn_iff]; split <;> simp

theorem portResetState_port : (portResetState p s).port p = resetReEntry s.setup.wakeSettle (portReset (s.port p)) := by
  have : (resetLinkDown p s).port p = s.port p := by simp only [resetLinkDown]; split <;> simp
  rw [portResetState, State.modPort_port_self, this]

theorem resetReEntry_spec (code : Nat) (pt : Port) :
    (resetReEntry code (portReset pt)).front = pt.front ∧ (resetReEntry code (portReset pt)).res = Resolution.fresh ∧
    (resetReEntry code (portReset pt)).watch = Watch.fresh ∧ (resetReEntry code (portReset pt)).store = PortStore.fresh ∧
    (resetReEntry code (portReset pt)).train = { Training.fresh with
      state := if pt.train.state = .disabled then .disabled else if pt.train.state = .offline then .offline
        else if pt.front.energy then .settling else .dormant
      consoleDisabled := pt.train.consoleDisabled, shadowed := pt.train.shadowed
      lastDrop := if pt.train.state = .up then some .console else none } := by
  by_cases hd : pt.train.state = .disabled
  · simp [resetReEntry, portReset, Port.isIn, hd]
  · by_cases ho : pt.train.state = .offline
    · simp [resetReEntry, portReset, Port.isIn, ho]
    · cases he : pt.front.energy <;>
        simp [resetReEntry, portReset, Port.isIn, hd, ho, portReEntry, he, enterSettling, enterDormant, settleInto, clearAttempt, Training.fresh,
          Timer.pause, Timer.off]

end

/-- Settles O37: each request by the state of the port, and the measurement that it ends. -/
theorem offerEnableDisableAndResetPort : Obligations.OfferEnableDisableAndResetPort := by
  intro via p s hs hv
  refine ⟨fun grades pref r hr he => ?_, fun grades pref r hr he => ⟨fun hk => ?_, fun hk => ?_, fun hu => ?_⟩, fun hn => ?_,
    fun hn => ⟨fun hd => ?_, fun hd => ?_⟩, fun hd => ?_, fun hd ho => ?_, ?_⟩
  · exact offer_answered hs hv hr _ _ (offerPort_empty he)
  · refine offer_answered hs hv hr _ _ (offerPort_keeps (s := frameEnded s) he ?_)
    rcases hk with h | h | h | h <;> exact congrArg offerKeepsState h
  · have hk' : offerKeepsState (s.port p).train.state = false := by
      rcases hk with h | h | h | h | h <;> exact congrArg offerKeepsState h
    have hu : ((frameEnded s).port p).train.state ≠ .up := by
      rcases hk with h | h | h | h | h <;> exact fun g => by rw [show (s.port p).train.state = .up from g] at h; cases h
    refine ⟨_, offer_answered hs hv hr _ _ (offerPort_settles (s := frameEnded s) he hk'), ?_⟩
    have hd : dropIfUp p (frameEnded s) = frameEnded s := if_neg (by simpa [Port.isIn] using hu)
    rw [hd, toSettling, changeTrain, State.modPort_modPort]
    refine ⟨.modPort _ p _, ?_⟩
    rw [State.modPort_port_self]
    exact enterSettling_spec _ _
  · refine ⟨_, offer_answered hs hv hr _ _ (offerPort_settles (s := frameEnded s) he (congrArg offerKeepsState hu)), ?_⟩
    rw [toSettling_up (s := frameEnded s) hu]
    refine ⟨((OnlyPortAndEvents.modPort p _ _).trans (.raise p _ _)).trans (.modPort p _ _), by simp; rfl, ?_, ?_⟩
    · simp only [State.modPort_port_self, raise_port]
      exact enterSettling_spec _ _
    · simp only [State.modPort_port_self, raise_port]
      rfl
  · exact enable_answered hs hv _ _ (if_pos hn)
  · refine enable_answered hs hv _ _ ((if_neg (by rw [show (frameEnded s).unserved p = false from hn]; decide)).trans
      (if_neg (by simpa [Port.isIn] using (show ((frameEnded s).port p).train.state ≠ .disabled from hd))))
  · refine ⟨_, enable_answered hs hv _ _ ((if_neg (by rw [show (frameEnded s).unserved p = false from hn]; decide)).trans
      (if_pos (Port.isIn_iff.2 hd))), ?_⟩
    rw [reEnter, changeTrain, State.modPort_modPort]
    refine ⟨.modPort _ p _, ?_⟩
    rw [State.modPort_port_self]
    exact portReEntry_spec _ _
  · exact disable_answered hs hv _ _ (disablePort_stays (s := frameEnded s) hd)
  · obtain ⟨h1, h2, h3, h4, h5⟩ := disabledState_port (p := p) (s := frameEnded s)
    refine ⟨disabledState p (frameEnded s), disabledState_only, h1, h2, h3, h4, h5, disabledState_summary, ?_⟩
    refine endsMatter_of (matter := endMatter p .portDisabled .portDisabled (disabledState p (frameEnded s))) disabledState_only
      (disable_answered hs hv _ _ (disablePort_leaves (s := frameEnded s) hd ho)) endMatter_nothing endMatter_waiting
      (fun ch => endMatter_held)
  · obtain ⟨h1, h2, h3, h4, h5⟩ := resetReEntry_spec s.setup.wakeSettle (s.port p)
    have hp : (portResetState p (frameEnded s)).port p = resetReEntry s.setup.wakeSettle (portReset (s.port p)) := portResetState_port
    rw [← hp] at h1 h2 h3 h4 h5
    have honly : OnlyPortAndEvents p (frameEnded s) (portResetState p (frameEnded s)) := portResetState_only
    refine ⟨portResetState p (frameEnded s), honly, h1, h2, h3, h4, h5, portResetState_summary, ?_⟩
    refine endsMatter_of (matter := resetMatter p (portResetState p (frameEnded s))) honly (exec_resetPort hs hv)
      (fun hw hc => by simp only [resetMatter, hw, hc]) (fun hw => ?_) (fun ch hw hc => by simp only [resetMatter, hw, hc])
    obtain ⟨e, he⟩ := Option.ne_none_iff_exists'.1 hw
    have hes : waitingFor p s = some e := (honly.waitingFor p).symm.trans he
    have hremove : removeEntry p (portResetState p (frameEnded s)) =
        { portResetState p (frameEnded s) with queue := withoutTarget p s.queue } := by rw [removeEntry, honly.queue]; rfl
    have hdrop : resetMatter p (portResetState p (frameEnded s)) =
        sweepAfter (carriesTag s e) { portResetState p (frameEnded s) with queue := withoutTarget p s.queue } := by
      simp only [resetMatter, he, dropWaiting, hremove, carriesTag, honly.sweep]
      rfl
    rw [hdrop]
    refine (sweepAfter_carriesTag e s { portResetState p (frameEnded s) with queue := withoutTarget p s.queue } honly.sweep).trans
      (if_congr (or_congr_left ?_) rfl rfl)
    rw [hes]
    exact ⟨fun h => ⟨e, rfl, h⟩, fun ⟨x, hx, h⟩ => by cases hx; exact h⟩

end Sys2Proof.Machine
end

section
/-! PROOF of O35: what a stop does to a channel, by its phase and outcome. -/

namespace Sys2Proof.Machine

open Sys2Proof

@[simp] theorem State.modChan_modChan (s : State) (ch : ChannelId) (f g : Channel → Channel) :
    (s.modChan ch f).modChan ch g = s.modChan ch (fun c => g (f c)) := by
  simp [State.modChan, State.chan]

theorem State.modChan_congr (s : State) (ch : ChannelId) (f g : Channel → Channel) (h : f (s.chan ch) = g (s.chan ch)) :
    s.modChan ch f = s.modChan ch g := by simp [State.modChan, h]

/-! ### The claim of a channel whose measurement ends (R88, R97, R99) -/

theorem claimSent_iff {c : Channel} : claimSent c = true ↔ ∃ l, c.claim = some l ∧ l.state ≠ .queued := by
  cases h : c.claim with
  | none => simp [claimSent, h]
  | some l => simp [claimSent, h]

theorem releaseClaim_clear {ch : ChannelId} {l : LocalClaim} {s : State} (hc : (s.chan ch).claim = some l)
    (ht : s.line.condition = .stuck ∨ s.line.listenIn.running = true) :
    releaseClaim ch s = s.modChan ch (fun c => { c with phase := .idle, claim := none }) := by
  simp only [releaseClaim, hc, (releaseDiscarded_iff s).2 ht, if_true]

theorem releaseClaim_placed {ch : ChannelId} {l : LocalClaim} {s : State} (hc : (s.chan ch).claim = some l)
    (hn : s.line.condition ≠ .stuck) (hr : s.line.listenIn.running = false) :
    releaseClaim ch s = { s.modChan ch (fun c => { c with phase := .releasing, claim := some { l with state := .releasing } }) with
      line := { s.line with list := insertFrame ⟨.release, [l.number, byteOf l.target.val], some ch, false⟩ s.line.list } } := by
  have hd : ¬ releaseDiscarded s = true := by
    rw [releaseDiscarded_iff]
    rintro (h | h)
    · exact hn h
    · rw [hr] at h; cases h
  simp only [releaseClaim, hc, if_neg hd]
  rfl

/-- A channel ends its measurement as `drop` says, and then its sent claim is released or its unsent one ends. -/
theorem channelFreed_of {drop : Channel → Channel} (hdrop : ∀ c, (drop c).claim = c.claim) (ch : ChannelId) (w : State) :
    ChannelFreed drop ch w
      (if claimSent (w.chan ch) then releaseClaim ch (w.modChan ch drop) else dropUnsentClaim ch (w.modChan ch drop)) := by
  refine ⟨fun l hl hs => ?_, fun hq => ?_⟩
  · have hclaim : ((w.modChan ch drop).chan ch).claim = some l := by rw [State.modChan_chan_self, hdrop, hl]
    rw [if_pos (claimSent_iff.2 ⟨l, hl, hs⟩)]
    refine ⟨fun ht => ?_, fun hn hr => ?_⟩
    · rw [releaseClaim_clear hclaim ht, State.modChan_modChan]
    · rw [releaseClaim_placed hclaim hn hr, State.modChan_modChan]; rfl
  · rw [if_neg fun h => by obtain ⟨l, hl, hs⟩ := claimSent_iff.1 h; exact hs (hq l hl)]
    have hf : takeFrameOut .claim ch (w.modChan ch drop) =
        { w with line := { w.line with list := takeOut (fun f => f.isFor .claim ch) w.line.list } }.modChan ch drop := rfl
    rw [dropUnsentClaim, hf, State.modChan_modChan]
    rfl

/-! ### The stop itself (R96 to R98) -/

theorem stopNow_eq (ch : ChannelId) (o : StopOutcome) (s : State) :
    stopNow ch o s = if claimSent (s.chan ch) then releaseClaim ch (endWith ch o s) else dropUnsentClaim ch (endWith ch o s) := rfl

theorem finalOutcome_chan (p : PortId) (o : FinalOutcome) (s : State) (ch : ChannelId) : (finalOutcome p o s).chan ch = s.chan ch := by
  simp only [State.chan, finalOutcome_channels]

/-- A stop with a final outcome: the entry ends, and then the channel. -/
theorem stopNow_final {ch : ChannelId} {m : Measurement} {o : StopOutcome} {f : FinalOutcome} {s : State}
    (hm : (s.chan ch).meas = some m) (ho : (o = .cancelled ∧ f = .cancelled) ∨ (o = .portDisabled ∧ f = .portDisabled)) :
    ChannelFreed stoppedMeasurement ch (finalOutcome m.port f s) (stopNow ch o s) := by
  have hend : endWith ch o s = (finalOutcome m.port f s).modChan ch stoppedMeasurement := by
    rcases ho with ⟨rfl, rfl⟩ | ⟨rfl, rfl⟩ <;> simp only [endWith, hm] <;> rfl
  have h := channelFreed_of (drop := stoppedMeasurement) (fun _ => rfl) ch (finalOutcome m.port f s)
  rw [finalOutcome_chan] at h
  rw [stopNow_eq, hend]
  exact h

/-- Giving an entry back changes the queue and the port alone. -/
theorem giveBack_eq (ch : ChannelId) (s : State) :
    giveBack ch s = { s with ports := (giveBack ch s).ports, queue := (giveBack ch s).queue } := by
  simp only [giveBack]; split <;> rfl

theorem stopNow_givesBack {ch : ChannelId} {m : Measurement} {e : Entry} {o : StopOutcome} {s : State}
    (hm : (s.chan ch).meas = some m) (he : heldEntry ch s = some e) (ht : e.target = m.port) (ho : o = .preempted ∨ o = .withdrawn) :
    GivesBack ch m.port e s (stopNow ch o s) ∧
      ChannelFreed givenBackMeasurement ch { s with ports := (stopNow ch o s).ports, queue := (stopNow ch o s).queue }
        (stopNow ch o s) := by
  have hend : endWith ch o s = (giveBack ch s).modChan ch givenBackMeasurement := by
    rcases ho with rfl | rfl <;> simp only [endWith, hm] <;> rfl
  have hback : (giveBack ch s).chan ch = s.chan ch := by rw [giveBack_eq]; rfl
  have hkept : (stopNow ch o s).ports = (giveBack ch s).ports ∧ (stopNow ch o s).queue = (giveBack ch s).queue := by
    rw [stopNow_eq, hend]
    split
    · exact ⟨(releaseClaim_only ch _).ports, (releaseClaim_only ch _).queue⟩
    · exact ⟨(dropUnsentClaim_only ch _).ports, (dropUnsentClaim_only ch _).queue⟩
  refine ⟨?_, ?_⟩
  · by_cases hs : claimSent (s.chan ch) = true
    · obtain ⟨l, hl, hq⟩ := claimSent_iff.1 hs
      exact (stopNow_sent ch m e l o s hm he ht hl hq ho).1
    · refine (stopNow_unsent ch m e o s hm he ht (fun l hl => ?_) ho).1
      by_contra hq
      exact hs (claimSent_iff.2 ⟨l, hl, hq⟩)
  · rw [hkept.1, hkept.2, ← giveBack_eq, stopNow_eq, hend, ← hback]
    exact channelFreed_of (drop := givenBackMeasurement) (fun _ => rfl) ch (giveBack ch s)

/-- A stop that takes effect at once is the stop of Table 5-6. -/
theorem stopTaken_stopNow (ch : ChannelId) (o : StopOutcome) (s : State) : StopTaken ch o s (stopNow ch o s) :=
  fun _ _ hm he ht => ⟨fun ho => stopNow_final hm (.inl ⟨ho, rfl⟩), fun ho => stopNow_final hm (.inr ⟨ho, rfl⟩),
    stopNow_givesBack hm he ht⟩

/-! ### The stop by phase (Table 5-6) -/

theorem claimOnLine_iff {ch : ChannelId} {s : State} :
    claimOnLine ch s = true ↔ ∃ f, s.line.onLine = some f ∧ f.frame.isFor .claim ch = true := by
  cases h : s.line.onLine <;> simp [claimOnLine, h]

section
variable {ch : ChannelId} {o : StopOutcome} {s : State}

theorem stopChannel_idle (h : (s.chan ch).phase = .idle ∨ (s.chan ch).phase = .releasing) : stopChannel ch o s = s := by
  rcases h with h | h <;> simp [stopChannel, h]

/-- The stop pends while the CLAIM is on the line or the capture is open (R88, R96). -/
theorem stopChannel_pends (h : ((s.chan ch).phase = .claiming ∧ claimOnLine ch s = true) ∨
    ((s.chan ch).phase = .bursting ∧ (s.chan ch).stage = .capture)) :
    stopChannel ch o s = s.modChan ch (fun c => { c with stop := some (mergeStop (s.chan ch).stop o) }) := by
  rcases h with ⟨h1, h2⟩ | ⟨h1, h2⟩ <;> simp [stopChannel, h1, h2]

theorem stopChannel_now (h : (s.chan ch).phase = .preparing ∨ (s.chan ch).phase = .waitYield ∨
    ((s.chan ch).phase = .claiming ∧ claimOnLine ch s = false) ∨ ((s.chan ch).phase = .bursting ∧ (s.chan ch).stage ≠ .capture)) :
    stopChannel ch o s = stopNow ch (mergeStop (s.chan ch).stop o) s := by
  rcases h with h | h | ⟨h1, h2⟩ | ⟨h1, h2⟩
  · simp [stopChannel, h]
  · simp [stopChannel, h]
  · simp [stopChannel, h1, h2]
  · simp [stopChannel, h1, h2]

theorem Channel.capturing_iff {c : Channel} : c.capturing = true ↔ c.phase = .bursting ∧ c.stage = .capture := by
  simp [Channel.capturing]

/-- A pending stop takes effect as the capture closes (R96). -/
theorem exec_captureClose_stopped {input : CaptureInput} (hp : (s.chan ch).phase = .bursting) (hc : (s.chan ch).stage = .capture)
    (hs : (s.chan ch).stop = some o) : exec (.captureClose ch input) s = .next (react (stopNow ch o s)) := by
  refine congrArg Host.Outcome.next ((onChan_pos (Channel.capturing_iff.2 ⟨hp, hc⟩)).trans ?_)
  simp only [hs]

theorem exec_yieldLimit (hp : (s.chan ch).phase = .waitYield) :
    exec (.yieldLimit ch) s = .next (react (stopNow ch (mergeStop (s.chan ch).stop .withdrawn) s)) := by
  refine congrArg Host.Outcome.next ((onChan_pos (by simp [hp])).trans ?_)
  rw [stopChannel_now (.inr (.inl hp))]

end

/-- Settles O35: the stop by phase, the two commands that bring one, and which outcome stands of two. -/
theorem stopsTakeEffectByPhaseAndOutcome : Obligations.StopsTakeEffectByPhaseAndOutcome := by
  refine ⟨fun ch o s => ⟨stopChannel_idle, fun hp hl => stopChannel_pends (.inl ⟨hp, claimOnLine_iff.2 hl⟩),
    fun hp hc => stopChannel_pends (.inr ⟨hp, hc⟩), fun h => ?_⟩, fun ch o input s hp hc hs => ?_, fun ch s hp => ?_,
    fun old o x => ⟨rfl, ?_, by cases o <;> rfl, ?_, ?_, ?_⟩⟩
  · rw [stopChannel_now]
    · exact stopTaken_stopNow ch _ s
    · refine h.imp id (Or.imp id (Or.imp (fun ⟨h1, h2⟩ => ⟨h1, ?_⟩) id))
      rw [← Bool.not_eq_true, claimOnLine_iff]
      rintro ⟨f, hf, hk⟩
      rw [h2 f hf] at hk; cases hk
  · exact ⟨_, exec_captureClose_stopped hp hc hs, stopTaken_stopNow ch o s⟩
  · exact ⟨_, exec_yieldLimit hp, stopTaken_stopNow ch _ s⟩
  · cases old with
    | none => rfl
    | some y => cases y <;> rfl
  · cases o <;> simp [mergeStop]
  · cases old with
    | none => intro; rfl
    | some y => cases y <;> simp [mergeStop]
  · rintro (rfl | rfl) (rfl | rfl) <;> rfl

end Sys2Proof.Machine
end

section
/-! PROOFS of O42 to O45: the launch trigger, captures, the ends of a burst, and the pulse budget. -/

namespace Sys2Proof.Machine

open Sys2Proof

/-! ### The launch trigger (R91 to R93) -/

section
variable {ch : ChannelId} {m : Measurement} {e : Entry} {s : State}

theorem Channel.beforeLaunch_iff {c : Channel} (hm : c.meas = some m) : c.beforeLaunch = true ↔
    c.phase = .bursting ∧ (c.stage = .gap ∨ (c.stage = .recovery ∧ c.launched < m.planned)) := by
  simp [Channel.beforeLaunch, planned_of_meas hm]

theorem returnResult_none (h : (s.chan ch).working = none) : returnResult ch s = s := by
  simp only [returnResult, h]

theorem exec_launchTrigger (h : (s.chan ch).beforeLaunch = true) :
    exec (.launchTrigger ch) s = .next (triggerShot ch (returnResult ch s)) :=
  congrArg Host.Outcome.next (onChan_pos h)

theorem triggerShot_of (hm : (s.chan ch).meas = some m) (he : heldEntry ch s = some e) :
    triggerShot ch s = if launchAllowed ch m s then launchShot ch m e s
      else react (stopNow ch (mergeStop (s.chan ch).stop .withdrawn) s) := by
  simp only [triggerShot, hm, he]

theorem drivenPair_of {i : Nat} {x : Pair} (h : e.pairs.members[i / (4 * averagingCount e.averaging)]? = some x) :
    drivenPair e i = x := by
  simp [drivenPair, shotsPerPair, List.getD_eq_getElem?_getD, h]

theorem launchShot_spec {x : Pair} (hx : drivenPair e (s.chan ch).launched = x) :
    launchShot ch m e s = { (s.modPort m.port (fun _ => (launchShot ch m e s).port m.port)).modChan ch
        (fun _ => (launchShot ch m e s).chan ch) with
        budget := countShot s.setup.shotThreshold s.setup.paceTime s.budget } ∧
      (launchShot ch m e s).port m.port = { s.port m.port with front := { (s.port m.port).front with
        launched := [.pulse x (pulseWidth e.reach)] } } ∧
      (launchShot ch m e s).chan ch = { s.chan ch with
        stage := .capture, launched := (s.chan ch).launched + 1, shot := ⟨true, 4, 16⟩ } := by
  have hport : (launchShot ch m e s).port m.port = { s.port m.port with front := { (s.port m.port).front with
      launched := [.pulse x (pulseWidth e.reach)] } } := by
    rw [← hx]
    exact State.modPort_port_self s m.port (fun pt => { pt with
      front.launched := [.pulse (drivenPair e (s.chan ch).launched) (pulseWidth e.reach)] })
  have hchan : (launchShot ch m e s).chan ch = { s.chan ch with
      stage := .capture, launched := (s.chan ch).launched + 1, shot := ⟨true, 4, 16⟩ } :=
    State.modChan_chan_self (s.modPort m.port (fun pt => { pt with
      front.launched := [.pulse (drivenPair e (s.chan ch).launched) (pulseWidth e.reach)] })) ch
      (fun c => { c with stage := .capture, launched := c.launched + 1, shot := ⟨true, 4, 16⟩ })
  refine ⟨?_, hport, hchan⟩
  rw [hport, hchan, launchShot, hx]
  rfl

theorem returnResult_working (ch : ChannelId) (s : State) : ((returnResult ch s).chan ch).working = none := by
  simp only [returnResult]; split
  · assumption
  · rw [State.modChan_chan_self]

theorem exec_pairResultReturn (hb : (s.chan ch).phase = .bursting) (hw : (s.chan ch).working.isSome = true) :
    exec (.pairResultReturn ch) s = .next (returnResult ch s) :=
  congrArg Host.Outcome.next (onChan_pos (by simp [hb, hw]))

/-- Settles O42: the trigger launches where R93 allows it, and ends the measurement otherwise. -/
theorem launchTriggersFireOrWithdraw : Obligations.LaunchTriggersFireOrWithdraw := by
  intro ch m e s hb hst hm he ht
  have hx := exec_launchTrigger ((Channel.beforeLaunch_iff hm).2 ⟨hb, hst⟩)
  refine ⟨fun hw hs hh hv x hp => ?_, fun l hw hs hc hl hno => ?_, fun o hw hs => ?_, fun t hw htr => ?_⟩
  · obtain ⟨h1, h2, h3⟩ := launchShot_spec (m := m) (s := s) (ch := ch) (drivenPair_of hp)
    rw [returnResult_none hw, triggerShot_of hm he, if_pos ((launchAllowed_iff ch m s).2 ⟨hs, hh, hv⟩)] at hx
    refine ⟨_, hx, h1, h2.trans ?_, h3⟩
    cases e.reach <;> rfl
  · have hnot : ¬ launchAllowed ch m s = true := by
      rw [launchAllowed_iff]
      rintro ⟨-, h1, h2⟩
      rcases hno with h | ⟨v, hv, h⟩
      · exact h h1
      · rw [h2 v hv] at h; cases h
    rw [returnResult_none hw, triggerShot_of hm he, if_neg hnot, hs] at hx
    exact ⟨_, hx, stopNow_sent ch m e l .withdrawn s hm he ht hc (by rw [hl]; decide) (.inr rfl)⟩
  · have hnot : ¬ launchAllowed ch m s = true := by
      rw [launchAllowed_iff, hs]
      rintro ⟨h, -⟩; cases h
    rw [returnResult_none hw, triggerShot_of hm he, if_neg hnot, hs] at hx
    exact ⟨_, hx, stopTaken_stopNow ch _ s⟩
  · obtain rfl : returnResult ch s = t := by
      have h2 := (exec_pairResultReturn hb hw).symm.trans htr
      cases h2; rfl
    have hkept : ((returnResult ch s).chan ch).beforeLaunch = true := by
      obtain ⟨w, hw'⟩ := Option.isSome_iff_exists.1 hw
      rw [returnResult]
      simp only [hw', State.modChan_chan_self]
      exact (Channel.beforeLaunch_iff hm).2 ⟨hb, hst⟩
    rw [hx, exec_launchTrigger hkept, returnResult_none (returnResult_working ch s)]

end

/-! ### Captures (R92, R95, R103) -/

theorem digitize_eq (x : Int) : digitize x = max (-2048) (min 2047 x) := by
  exact Distance.clampInt_eq_max_min (by decide) x

theorem captureSamples_eq (n : Nat) (l : List Int) :
    captureSamples n l = (List.range n).map (fun i => max (-2048) (min 2047 (l.getD i 0))) := by
  induction n generalizing l with
  | zero => rfl
  | succ n ih =>
    rw [List.range_succ_eq_map, List.map_cons, List.map_map]
    cases l with
    | nil => simp [captureSamples, ih, Function.comp_def]
    | cons x xs => simp [captureSamples, ih, digitize_eq, Function.comp_def]

theorem PerPair.zip_get {α β γ : Type} (f : α → β → γ) (v : PerPair α) (w : PerPair β) (x : Pair) :
    (PerPair.zip f v w).get x = f (v.get x) (w.get x) := by cases x <;> rfl

theorem captureAdded_addCapture (w slot : Nat) (input : CaptureInput) (old : PerPair (PerPhase (List Int))) :
    CaptureAdded w slot input old (addCapture w (slotPhase slot) input old) := by
  rintro x c rfl
  rw [addCapture, PerPair.zip_get, captureSamples_eq]
  rcases slot with _ | _ | _ | n <;> simp [slotPhase, updatePhase, addSamples]

/-- Settles O43: the capture's sums, the averages at a pair's last shot, and the result returned. -/
theorem capturesSumAverageAndReturnResults : Obligations.CapturesSumAverageAndReturnResults := by
  intro ch m e input s hb hm he ht
  refine ⟨fun hc hs => ?_, fun w hw => ?_, fun n => by cases n <;> rfl, fun q => rfl⟩
  · have hx : exec (.captureClose ch input) s = .next (s.modChan ch (closeCapture e m input)) := by
      refine congrArg Host.Outcome.next ((onChan_pos (Channel.capturing_iff.2 ⟨hb, hc⟩)).trans ?_)
      simp only [hs, hm, he]
    refine ⟨addCapture (captureWindow e.reach) (slotPhase (((s.chan ch).launched - 1) % 4)) input (s.chan ch).sums, ?_, fun hn => ?_,
      fun x hl hp => ⟨(addCapture (captureWindow e.reach) (slotPhase (((s.chan ch).launched - 1) % 4)) input (s.chan ch).sums).map
        (averageSums (averagingCount e.averaging)), fun y => by cases y <;> rfl, ?_⟩⟩
    · have := captureAdded_addCapture (captureWindow e.reach) (((s.chan ch).launched - 1) % 4) input (s.chan ch).sums
      cases h : e.reach <;> rw [h] at this <;> exact this
    · rw [hx]
      refine congrArg _ (State.modChan_congr _ _ _ _ ?_)
      exact if_neg hn
    · rw [hx]
      refine congrArg _ (State.modChan_congr _ _ _ _ ((if_pos hl).trans ?_))
      rw [drivenPair_of hp]
      cases e.reach <;> rfl
  · rw [exec_pairResultReturn hb (by rw [hw]; rfl), returnResult]
    simp only [hw]

/-! ### The ends of a burst (R94, R95, R99) -/

theorem TakesReEntry.rest {code : Nat} {a b : Port} (h : TakesReEntry code a b) : RestOfPortKept a b := by
  rw [TakesReEntry] at h
  split at h
  · obtain ⟨-, -, -, -, -, -, hrest⟩ := h; exact hrest
  · obtain ⟨-, -, -, -, -, -, -, -, -, -, hrest⟩ := h; exact hrest

section
variable {ch : ChannelId} {m : Measurement} {e : Entry} {l : LocalClaim} {o : FinalOutcome} {r : Record} {s : State}

theorem finishBurst_of (hm : (s.chan ch).meas = some m) :
    finishBurst ch o s = releaseClaim ch ((finalOutcome m.port o s).modChan ch (burstMeasurement o)) := by
  simp only [finishBurst, hm]

/-- A burst's end frees its channel: its claim is a sent one (R99). -/
theorem finishBurst_freed (hm : (s.chan ch).meas = some m) (hl : (s.chan ch).claim = some l) (hs : l.state ≠ .queued) :
    ChannelFreed (burstMeasurement o) ch (finalOutcome m.port o s) (finishBurst ch o s) := by
  have h := channelFreed_of (drop := burstMeasurement o) (fun c => (burstMeasurement_claim o c).2) ch (finalOutcome m.port o s)
  rw [finalOutcome_chan, if_pos (claimSent_iff.2 ⟨l, hl, hs⟩)] at h
  rwa [finishBurst_of hm]

/-- The outcome o of a burst makes the record r of the entry e. -/
def MakesRecord (e : Entry) (o : FinalOutcome) (r : Record) : Prop :=
  ∃ q prs, (o = .complete q prs ∧ r = ⟨q, e.origin, .complete, e.reach, e.averaging, prs⟩) ∨
    (o = .busyLine q prs ∧ r = ⟨q, e.origin, .busyLine, e.reach, e.averaging, prs⟩)

/-- The line of a state that has changed at one port and raised one event. -/
theorem OnlyPortAndEvents.line_of_raised {p : PortId} {x : Event} {u : State} (h : OnlyPortAndEvents p s u)
    (hs : u.summary = s.summary.add x) : u.line = (Machine.raise x s).line := by
  have hr := OnlyPortAndEvents.raise p x s
  have h1 : u.line = { s.line with list := u.line.list } := congrArg State.line h.rest
  have h2 : (Machine.raise x s).line = { s.line with list := (Machine.raise x s).line.list } := congrArg State.line hr.rest
  rw [h1, h2, h.alert, hr.alert, hs, raise_summary]

/-- What the final outcome of a burst leaves at its port, where no downshift test pends and no sweep waits (R69, R126, R127). -/
theorem recorded_of_outcome (hr : MakesRecord e o r) (he : entryFor m.port s = some e) (hh : e.holder = some ch) (ht : e.tag = none)
    (hw : s.sweep.status ≠ .waitingSpace) (hc : (s.port m.port).train.downshiftCheck = false) :
    ∃ u store, finalOutcome m.port o s = u ∧ OnlyPortAndEvents m.port { s with queue := withoutTarget m.port s.queue } u ∧
      u.summary = s.summary.add (.diagDone m.port) ∧
      store = { (s.port m.port).store with record := some r, attempt := some (match r.outcome with
        | .complete => .complete | .busyLine => .busyLine) } ∧
      ∀ v, v = { s.port m.port with
          store := store
          train := { (s.port m.port).train with
            health := PerPair.zip healthAfter (r.pairs.map PairResult.verdict) (s.port m.port).train.health } } →
        ((s.port m.port).train.state = .held → (s.port m.port).train.holds = ⟨true, false, false⟩ →
          TakesReEntry s.setup.wakeSettle v (u.port m.port)) ∧
        RestOfPortKept v (u.port m.port) := by
  obtain ⟨v, u, hu, honly, hv, hhealth, hfree, -, hholds⟩ := finalOutcomeEndsAnEntry.1 m.port e o s he
  obtain ⟨hdown, hfour, hsum⟩ := hfree hc
  rw [if_neg (by rw [ht]; simp [hw])] at hu
  obtain ⟨hkeep, hback⟩ := hholds _ rfl
  simp only [hh, reduceCtorEq, if_false] at hkeep hback
  have hrecord : v.store = { (s.port m.port).store with record := some r, attempt := some (match r.outcome with
        | .complete => .complete | .busyLine => .busyLine) } ∧
      v.train.health = PerPair.zip healthAfter (r.pairs.map PairResult.verdict) (s.port m.port).train.health := by
    rw [hhealth, hv]
    obtain ⟨q, prs, ⟨rfl, rfl⟩ | ⟨rfl, rfl⟩⟩ := hr <;> exact ⟨rfl, rfl⟩
  have hvx : v = { s.port m.port with
      store := v.store
      train := { (s.port m.port).train with health := v.train.health } } := by
    rw [hdown, hfour] at hv
    conv_lhs => rw [hv]
    conv_rhs => rw [hv]
    simp [← hc]
  refine ⟨u, v.store, hu, honly, hsum, hrecord.1, ?_⟩
  rw [← hrecord.2]
  rintro w rfl
  rw [← hvx]
  refine ⟨fun h1 h2 => hback h1 (by rw [h2]), ?_⟩
  by_cases hd : (s.port m.port).train.state ≠ .held ∨
      { (s.port m.port).train.holds with channel := false } ≠ (⟨false, false, false⟩ : HoldReasons)
  · rw [hkeep hd]
    exact ⟨rfl, rfl, rfl, rfl⟩
  · obtain ⟨h1, h2⟩ := not_or.1 hd
    exact (hback (not_not.1 h1) (not_not.1 h2)).rest

/-- A burst that ends with a record has it stored and its claim released. -/
theorem finishBurst_recorded (hm : (s.chan ch).meas = some m) (hl : (s.chan ch).claim = some l) (hr : MakesRecord e o r)
    (he : entryFor m.port s = some e) (hh : e.holder = some ch) (ht : e.tag = none) (hw : s.sweep.status ≠ .waitingSpace)
    (hc : (s.port m.port).train.downshiftCheck = false) : BurstRecorded ch m.port l r s (finishBurst ch o s) := by
  obtain ⟨u, store, hu, honly, hsum, hstore, hport⟩ := recorded_of_outcome hr he hh ht hw hc
  obtain ⟨hback, hfront, hres, hwatch, hkept⟩ := hport _ rfl
  have hchan : u.chan ch = s.chan ch := hu ▸ finalOutcome_chan _ _ _ _
  rw [finishBurst_of hm, hu]
  have hrel := releaseClaim_only ch (u.modChan ch (burstMeasurement o))
  have hpt : ∀ q, (releaseClaim ch (u.modChan ch (burstMeasurement o))).port q = u.port q := fun q => by
    simp only [State.port, hrel.ports, State.modChan_ports]
  have hover := MeasurementOver.releaseClaim (c := s.chan ch) (ch := ch) (s := u.modChan ch (burstMeasurement o))
    (drop := burstMeasurement o) (by rw [State.modChan_chan_self, hchan])
  have hspec := releaseClaim_spec ch l (u.modChan ch (burstMeasurement o))
    (by rw [State.modChan_chan_self, (burstMeasurement_claim _ _).2, hchan, hl])
  refine ⟨?_, fun q hq => ?_, ?_, ?_, ?_, ?_, ?_, ?_, fun h1 h2 => ?_, ?_, ?_, ?_, ?_⟩
  · rw [hrel.queue, State.modChan_queue, honly.queue]
  · rw [hpt, honly.port_ne hq]; rfl
  · rw [hpt, hfront]
  · rw [hpt, hres]
  · rw [hpt, hwatch]
  · rw [hpt, hkept, hstore]
  · rw [hpt, hkept, hstore]
  · cases hr : r.outcome <;> simp [hpt, hkept, hstore, hr]
  · rw [hpt, hkept]; exact hback h1 h2
  · rw [hrel.summary, State.modChan_summary, hsum]
  · obtain ⟨q, prs, ⟨rfl, rfl⟩ | ⟨rfl, rfl⟩⟩ := hr <;> exact hover
  · rw [hrel.other, State.modChan_chan_ne _ _ _ _ (otherChannel_ne ch), ← hu, finalOutcome_chan]
  · have hline : u.line = (raise (.diagDone m.port) s).line := by
      rw [honly.line_of_raised hsum, raise_eq, raise_eq]
    simp only [ClaimReleased, State.modChan_line, hline] at hspec ⊢
    exact hspec

end

theorem recordPairs_get (results : List (Pair × PairResult)) (busy : Option Pair) (x : Pair) :
    (recordPairs results busy).get x = match results.find? (fun r => r.1 = x) with
      | some r => r.2
      | none => if busy = some x then busyResult else notMeasured := by
  cases x <;> rfl

/-- Settles O44: the natural end of a burst and the failed busy check make their records. -/
theorem burstsEndInARecord : Obligations.BurstsEndInARecord := by
  refine ⟨fun ch m e l q s hb hm he hq ht hl hs hseq hw => ?_, fun results busy x => ⟨fun r h => ?_, fun h => ?_⟩⟩
  · have hh : e.holder = some ch := by simpa using List.find?_some he
    refine ⟨fun hst hall => ⟨_, ?_, finishBurst_freed hm hl hs,
      fun h1 h2 h3 => finishBurst_recorded hm hl ⟨q, _, .inl ⟨rfl, rfl⟩⟩ hq hh h1 h2 h3⟩, fun hst => ?_⟩
    · refine congrArg Host.Outcome.next ((onChan_pos ?_).trans ?_)
      · simp [Channel.lastRecovery, hb, hst, planned_of_meas hm, hall]
      · simp only [returnResult_none hw, completeOutcome, hseq, Option.getD_some]
    · have hbefore := (Channel.beforeLaunch_iff hm).2 ⟨hb, hst⟩
      refine ⟨fun sample x hbusy hx => ⟨_, ?_, finishBurst_freed hm hl hs,
        fun h1 h2 h3 => finishBurst_recorded hm hl ⟨q, _, .inr ⟨rfl, rfl⟩⟩ hq hh h1 h2 h3⟩, fun sample hbusy => ?_⟩
      · refine congrArg Host.Outcome.next ((onChan_pos hbefore).trans ((if_pos hbusy).trans ?_))
        simp only [returnResult_none hw, failBusy, he, busyOutcome, hseq, Option.getD_some, drivenPair_of hx]
      · exact congrArg Host.Outcome.next ((onChan_pos hbefore).trans (if_neg (Nat.not_le.2 hbusy)))
  · rw [recordPairs_get, h]
  · rw [recordPairs_get, h]; rfl

/-! ### The pulse budget (R80 to R82) -/

/-- Settles O45: the count of shots, the budget window and the pace interval. -/
theorem pulseBudgetPacesTheStation : Obligations.PulseBudgetPacesTheStation := by
  refine ⟨fun threshold pace b => ?_, fun s hp hw => ?_, fun s hp => ?_⟩
  · by_cases h : b.shots ≤ threshold ∧ threshold < min 65535 (b.shots + 1)
    · rw [show countShot threshold pace b = _ from if_pos h]
      exact ⟨rfl, fun _ _ => ⟨rfl, rfl⟩, fun hn => absurd h hn⟩
    · rw [show countShot threshold pace b = _ from if_neg h]
      exact ⟨rfl, fun h1 h2 => absurd ⟨h1, h2⟩ h, fun _ => ⟨rfl, rfl⟩⟩
  · refine congrArg Host.Outcome.next ((if_pos (by simp [hp, hw])).trans ?_)
    cases h : s.budget.paced <;> simp [windowPassed, h, Timer.start]
  · exact congrArg Host.Outcome.next (if_pos hp)

end Sys2Proof.Machine
end

section
/-! PROOFS of O46: what the arbiter offers, and what a pickup does. -/

namespace Sys2Proof.Machine

open Sys2Proof

/-! ### Eligibility (R73, R74, R82) -/

theorem offersAllowed_iff {s : State} : offersAllowed s = true ↔ s.station.phase = .run ∧ s.line.condition ≠ .stuck ∧
    s.line.listenIn.running = false ∧ s.line.duplicate = false ∧ s.station.announced = true := by
  simp [offersAllowed, and_assoc]

theorem countedConflict_false {pr : Priority} {g : GlobalPort} {s : State} : countedConflict pr g s = false ↔
    ∀ v ∈ s.view, conflicts s.station.geometry g v.target = true → pr = .urgent ∧ v.priority = .background := by
  simp [countedConflict, viewConflicts]

theorem foregroundWaits_false {s : State} : foregroundWaits s = false ↔
    ∀ x ∈ s.queue, x.holder = none → x.priority = .background := by
  simp [foregroundWaits, Entry.waiting]

theorem paceAllows_iff {s : State} : paceAllows s = true ↔
    (s.budget.paced = true → s.budget.lastClaimStart ≠ none → s.budget.pacePassed = true) := by
  cases h : s.budget.paced <;> cases h' : s.budget.lastClaimStart <;> simp [paceAllows, h, h']

/-- Entry e may be offered to channel ch, condition by condition. -/
theorem eligible_iff {ch : ChannelId} {s : State} {e : Entry} : eligible ch s e = true ↔ e.holder = none ∧
    (∀ m, (s.chan (otherChannel ch)).meas = some m →
      conflicts s.station.geometry (globalOf s.station.number e.target) m.target = false) ∧
    (∀ v ∈ s.view, conflicts s.station.geometry (globalOf s.station.number e.target) v.target = true →
      e.priority = .urgent ∧ v.priority = .background) ∧
    (e.priority = .background → ch = 0 ∧ ∀ x ∈ s.queue, x.holder = none → x.priority = .background) ∧
    (e.priority ≠ .urgent → s.budget.paced = true → s.budget.lastClaimStart ≠ none → s.budget.pacePassed = true) := by
  have hbackground : (e.priority != .background || (!foregroundWaits s && ch == 0)) = true ↔
      (e.priority = .background → ch = 0 ∧ ∀ x ∈ s.queue, x.holder = none → x.priority = .background) := by
    rw [← foregroundWaits_false]
    by_cases h : e.priority = .background <;> simp [h, and_comm]
  have hpace : (e.priority == .urgent || paceAllows s) = true ↔
      (e.priority ≠ .urgent → s.budget.paced = true → s.budget.lastClaimStart ≠ none → s.budget.pacePassed = true) := by
    rw [← paceAllows_iff]
    by_cases h : e.priority = .urgent <;> simp [h]
  rw [eligible]
  simp only [Bool.and_eq_true, Bool.not_eq_true', hbackground, hpace, countedConflict_false]
  simp [Entry.waiting, State.globalPort, and_assoc, Option.any_eq_false]

/-- An offer is taken: the entry is the first eligible one in queue order. -/
theorem offerTo_some {ch : ChannelId} {s t : State} : offerTo ch s = some t ↔ offersAllowed s = true ∧ (s.chan ch).phase = .idle ∧
    ∃ e, s.queue.find? (eligible ch s) = some e ∧ pickup ch e s = t := by
  rw [offerTo]
  split
  next h =>
    simp only [Bool.and_eq_true, beq_iff_eq] at h
    simp [h.1, h.2]
  next h =>
    simp only [Bool.and_eq_true, beq_iff_eq] at h
    simp only [reduceCtorEq, false_iff]
    exact fun ⟨h1, h2, _⟩ => h ⟨h1, h2⟩

theorem offerTo_none {ch : ChannelId} {s : State} : offerTo ch s = none ↔ offersAllowed s = false ∨ (s.chan ch).phase ≠ .idle ∨
    ∀ e ∈ s.queue, eligible ch s e = false := by
  rw [offerTo]
  split
  next h =>
    simp only [Bool.and_eq_true, beq_iff_eq] at h
    simp [h.1, h.2]
  next h =>
    simp only [Bool.and_eq_true, beq_iff_eq] at h
    simp only [true_iff]
    by_contra hn
    simp only [not_or, not_not, Bool.not_eq_false] at hn
    exact h ⟨hn.1, hn.2.1⟩

theorem offers_none {n : Nat} {s : State} (h1 : offerTo 1 s = none) (h0 : offerTo 0 s = none) : offers n s = s := by
  cases n <;> simp only [offers, h1, h0]

/-! ### The pickup by the port's state (R76, R85, R87) -/

theorem raise_modChan (x : Event) (s : State) (ch : ChannelId) (f : Channel → Channel) :
    raise x (s.modChan ch f) = (raise x s).modChan ch f := by
  rw [raise_eq, raise_eq]; rfl

theorem modPort_modChan (s : State) (p : PortId) (g : Port → Port) (ch : ChannelId) (f : Channel → Channel) :
    (s.modChan ch f).modPort p g = (s.modPort p g).modChan ch f := rfl

section
variable {ch : ChannelId} {e h : Entry} {s : State}

theorem pickup_disabled (hp : (s.port e.target).train.state = .disabled) :
    pickup ch e s = finalOutcome e.target .portDisabled ((setHolder e.target (some ch) s).modChan ch clearedMeasurement) := by
  simp only [pickup, hp]; rfl

theorem pickup_skipped (hp : (s.port e.target).train.state = .up) (hi : e.intrusive = false) :
    pickup ch e s = finalOutcome e.target .skippedLinkUp ((setHolder e.target (some ch) s).modChan ch clearedMeasurement) := by
  simp only [pickup, hp, hi]; rfl

theorem pickup_prepares (hp : (s.port e.target).train.state = .up) (hi : e.intrusive = true) :
    pickup ch e s = ((dropLink e.target .heldForMeasurement (setHolder e.target (some ch) s)).modPort e.target
        (holdPort addChannelHold)).modChan ch (fun c => { clearedMeasurement c with
          phase := .preparing, settle := ⟨true, 0, 1000 * 4 ^ s.setup.dropSettle⟩, meas := some (measurementOf s e) }) := by
  simp only [pickup, hp, hi, if_true, beginMeasurement, startPickup, hold, dropLink, modPort_modChan, raise_modChan,
    State.modChan_modChan]
  rfl

/-- A channel picked up into CLAIMING, with its claim queued (R85, R87). -/
def pickedChannel (number : Byte) (m : Measurement) (pr : Priority) (c : Channel) : Channel :=
  { clearedMeasurement c with
    phase := .claiming, meas := some m
    claim := some ⟨number, .queued, m.target, pr, m.duration, ⟨false, 0, 0⟩, ⟨false, 0, 0⟩⟩ }

theorem pickup_claims (hd : (s.port e.target).train.state ≠ .disabled) (hu : (s.port e.target).train.state ≠ .up)
    (hh : heldEntry ch (setHolder e.target (some ch) s) = some h) :
    pickup ch e s = placeFrame ⟨.claim, [s.claimCounter, byteOf (globalOf s.station.number e.target).val,
        priorityCode h.priority, byteOf (measurementOf s e).duration], some ch, false⟩
      { ((setHolder e.target (some ch) s).modPort e.target (holdPort addChannelHold)).modChan ch 
          (pickedChannel s.claimCounter (measurementOf s e) h.priority) with
        claimCounter := s.claimCounter + 1
        budget := { s.budget with
          lastClaimStart := some s.now, pace := ⟨true, 0, 1000 * s.setup.paceInterval⟩, pacePassed := false } } := by
  have hclaim : pickup ch e s = enterClaiming ch (beginMeasurement ch .claiming (measurementOf s e)
      (hold e.target addChannelHold (startPickup ch e s))) := by
    cases hs : (s.port e.target).train.state <;> simp only [pickup, hs]
    · exact absurd hs hd
    · exact absurd hs hu
  have hheld : heldEntry ch (beginMeasurement ch .claiming (measurementOf s e) (hold e.target addChannelHold (startPickup ch e s))) =
      some h := hh
  have hmeas : ((beginMeasurement ch .claiming (measurementOf s e) (hold e.target addChannelHold (startPickup ch e s))).chan ch).meas =
      some (measurementOf s e) := by rw [beginMeasurement, State.modChan_chan_self]
  rw [hclaim, enterClaiming]
  simp only [hheld, hmeas]
  simp only [beginMeasurement, hold, startPickup, modPort_modChan, State.modChan_modChan]
  rfl

/-- The port HELD for its channel (R20, R76). -/
theorem holdPort_channel (a : Port) :
    (holdPort addChannelHold a).train.state = .held ∧ (holdPort addChannelHold a).train.holds.channel = true ∧
      (holdPort addChannelHold a).train.holds.await = false ∧
      (holdPort addChannelHold a).train.lastFailure = a.train.lastFailure := by
  simp only [holdPort]
  split
  next h => exact ⟨h, rfl, rfl, rfl⟩
  next h => exact ⟨rfl, rfl, rfl, rfl⟩

/-- An entry that goes to a channel is the channel's entry. -/
theorem heldEntry_setHolder (he : e ∈ s.queue) : ∃ h, heldEntry ch (setHolder e.target (some ch) s) = some h := by
  refine Option.isSome_iff_exists.1 (List.find?_isSome.2 ⟨{ e with holder := some ch }, ?_, by simp⟩)
  exact List.mem_map.2 ⟨e, he, by simp⟩

/-- A pickup that does not end at once busies its channel, and touches only its own port and entry. -/
theorem pickup_busies (he : e ∈ s.queue) (hd : (s.port e.target).train.state ≠ .disabled)
    (hu : (s.port e.target).train.state = .up → e.intrusive = true) :
    ((pickup ch e s).chan ch).phase ≠ .idle ∧ (∀ d, d ≠ ch → (pickup ch e s).chan d = s.chan d) ∧
      (pickup ch e s).queue = (setHolder e.target (some ch) s).queue ∧
      ∀ q, q ≠ e.target → (pickup ch e s).port q = s.port q := by
  by_cases hp : (s.port e.target).train.state = .up
  · rw [pickup_prepares hp (hu hp)]
    refine ⟨?_, fun d hne => ?_, by simp [dropLink_queue], fun q hq => ?_⟩
    · rw [State.modChan_chan_self]; simp
    · rw [State.modChan_chan_ne _ _ _ _ (Ne.symm hne), State.modPort_chan, dropLink, raise_chan]; rfl
    · rw [State.modChan_port, State.modPort_port_ne _ _ _ _ (Ne.symm hq), dropLink, raise_port,
        State.modPort_port_ne _ _ _ _ (Ne.symm hq)]; rfl
  · obtain ⟨h, hh⟩ := heldEntry_setHolder (ch := ch) he
    rw [pickup_claims hd hp hh]
    refine ⟨?_, fun d hne => ?_, rfl, fun q hq => ?_⟩
    · have hc : (pickup ch e s).chan ch = pickedChannel s.claimCounter (measurementOf s e) h.priority (s.chan ch) := by
        rw [pickup_claims hd hp hh, placeFrame_chan]; exact State.modChan_chan_self _ ch _
      rw [← pickup_claims hd hp hh, hc]
      exact Phase.noConfusion
    · rw [placeFrame_chan]
      exact State.modChan_chan_ne _ _ _ _ (Ne.symm hne)
    · exact State.modPort_port_ne _ _ _ _ (Ne.symm hq)

end

/-! ### No offer is left (R73, assumption log 23) -/

/-- How many channels are idle. -/
def idleChannels (s : State) : Nat :=
  (if (s.chan 0).phase = .idle then 1 else 0) + (if (s.chan 1).phase = .idle then 1 else 0)

/-- No waiting entry ends at once when it is picked up. -/
def AllPickable (s : State) : Prop :=
  ∀ e ∈ s.queue, e.holder = none → (s.port e.target).train.state ≠ .disabled ∧
    ((s.port e.target).train.state = .up → e.intrusive = true)

/-- An offer that is taken leaves one channel less idle, and the other waiting entries as they were. -/
theorem offerTo_busies {ch : ChannelId} {s t : State} (hs : AllPickable s) (h : offerTo ch s = some t) :
    AllPickable t ∧ idleChannels t < idleChannels s := by
  obtain ⟨-, hidle, e, hfind, rfl⟩ := offerTo_some.1 h
  have hmem := List.mem_of_find?_eq_some hfind
  obtain ⟨hd, hu⟩ := hs e hmem (eligible_iff.1 (List.find?_some hfind)).1
  obtain ⟨hbusy, hother, hqueue, hport⟩ := pickup_busies (ch := ch) hmem hd hu
  refine ⟨fun x hx hw => ?_, ?_⟩
  · rw [hqueue] at hx
    obtain ⟨y, hy, rfl⟩ := List.mem_map.1 hx
    by_cases hty : y.target = e.target
    · simp [hty] at hw
    · rw [if_neg hty] at hw ⊢
      rw [hport _ hty]
      exact hs y hy hw
  · match ch, hidle, hbusy, hother with
    | 0, hidle, hbusy, hother => simp [idleChannels, hidle, hbusy, hother 1 (by decide)]
    | 1, hidle, hbusy, hother => simp [idleChannels, hidle, hbusy, hother 0 (by decide)]

theorem offers_exhausted (n : Nat) {s : State} (hs : AllPickable s) (hn : idleChannels s ≤ n) (ch : ChannelId) :
    offerTo ch (offers n s) = none := by
  induction n generalizing s with
  | zero =>
    refine offerTo_none.2 (.inr (.inl fun h => ?_))
    have h0 : idleChannels s = 0 := by omega
    simp only [idleChannels, Nat.add_eq_zero_iff, ite_eq_right_iff, Nat.one_ne_zero, imp_false] at h0
    match ch, h with
    | 0, h => exact h0.1 h
    | 1, h => exact h0.2 h
  | succ n ih =>
    have next : ∀ {d t}, offerTo d s = some t → offerTo ch (offers n t) = none := fun ht => by
      obtain ⟨ht', hlt⟩ := offerTo_busies hs ht
      exact ih ht' (by omega)
    cases h1 : offerTo 1 s with
    | some t => simpa only [offers, h1] using next h1
    | none =>
      cases h0 : offerTo 0 s with
      | some t => simpa only [offers, h1, h0] using next h0
      | none =>
        rw [offers_none h1 h0]
        match ch with
        | 0 => exact h0
        | 1 => exact h1

theorem insertFrame_filter_ne {k : FrameKind} {f : Frame} (hk : f.kind ≠ k) (l : List Frame) :
    (insertFrame f l).filter (fun g => g.kind == k) = l.filter (fun g => g.kind == k) := by
  induction l with
  | nil => simp [insertFrame, hk]
  | cons g l ih =>
    rw [insertFrame]
    split
    · rw [List.filter_cons, List.filter_cons, ih]
    · rw [List.filter_cons_of_neg (by simpa using hk)]

/-- Settles O46: the arbiter's silence, its choice, its end, and what each pickup does. -/
theorem offersPickUpTheFirstEligibleEntry : Obligations.OffersPickUpTheFirstEligibleEntry := by
  refine ⟨fun s h => ?_, fun ch s t h => ?_, fun ch e s h1 h2 h3 h4 h5 hi he hw hm hv hb hp => ?_, fun s => ⟨rfl, rfl, fun n =>
    ⟨fun t h1 => by rw [offers, h1], fun t h1 h0 => by simp only [offers, h1, h0], offers_none⟩⟩, fun ch s hs => ?_, fun ch e s hh =>
    ⟨fun hp hi => ?_, fun hp hn hi => ?_, fun hp hi => ?_, fun hd hu => ?_⟩⟩
  · have hn : ∀ ch, offerTo ch s = none := fun ch => offerTo_none.2 (.inl (by
      rw [← Bool.not_eq_true, offersAllowed_iff]
      rintro ⟨h1, h2, h3, h4, h5⟩
      simp [h1, h2, h3, h4, h5] at h))
    exact offers_none (hn 1) (hn 0)
  · obtain ⟨-, hidle, e, hfind, rfl⟩ := offerTo_some.1 h
    obtain ⟨he, before, after, hq, hbefore⟩ := List.find?_eq_some_iff_append.1 hfind
    obtain ⟨hw, hrest⟩ := eligible_iff.1 he
    exact ⟨hidle, e, before, after, hq, hw, fun x hx => by simpa using hbefore x hx, rfl, hrest⟩
  · rw [Ne, offerTo_none]
    rintro (h | h | h)
    · rw [offersAllowed_iff.2 ⟨h1, h2, h3, h4, h5⟩] at h; cases h
    · exact h hi
    · exact absurd (h e he) (by rw [eligible_iff.2 ⟨hw, hm, hv, hb, hp⟩]; decide)
  · exact offers_exhausted 64 hs (by simp only [idleChannels]; split <;> split <;> decide) ch
  · have hc : (pickup ch e s).chan ch = clearedMeasurement (s.chan ch) := by
      rw [pickup_disabled hp, finalOutcome_chan, State.modChan_chan_self]; rfl
    exact ⟨pickup_disabled hp, hc, by rw [hc]; exact hi⟩
  · have hc : (pickup ch e s).chan ch = clearedMeasurement (s.chan ch) := by
      rw [pickup_skipped hp hn, finalOutcome_chan, State.modChan_chan_self]; rfl
    exact ⟨pickup_skipped hp hn, hc, by rw [hc]; exact hi⟩
  · have hport : (pickup ch e s).port e.target = holdPort addChannelHold (dropPort .heldForMeasurement (s.port e.target)) := by
      rw [pickup_prepares hp hi, State.modChan_port, State.modPort_port_self, dropLink, raise_port, State.modPort_port_self]
      rfl
    have hheld : holdPort addChannelHold (dropPort .heldForMeasurement (s.port e.target)) = _ :=
      congrArg (fun pt : Port => { pt with train.holds := addChannelHold pt.train.holds })
        (if_neg (c := (dropPort .heldForMeasurement (s.port e.target)).train.state = .held)
          (show ¬(s.port e.target).train.state = .held by rw [hp]; decide))
    rw [hport, hheld]
    refine ⟨rfl, rfl, rfl, ?_, ?_, ?_⟩
    · rw [pickup_prepares hp hi, State.modChan_summary, State.modPort_summary, dropLink, raise_summary]; rfl
    · rw [pickup_prepares hp hi, State.modChan_chan_self, State.modPort_chan, dropLink, raise_chan]; rfl
    · rw [pickup_prepares hp hi, State.modChan_line, State.modPort_line, dropLink, raise_eq]
      show List.filter _ (ite _ _ _) = _
      split
      · exact insertFrame_filter_ne (by decide) _
      · rfl
  · have hport : (pickup ch e s).port e.target = holdPort addChannelHold (s.port e.target) := by
      rw [pickup_claims hd hu hh]; exact State.modPort_port_self _ _ _
    have hchan : (pickup ch e s).chan ch = pickedChannel s.claimCounter (measurementOf s e) e.priority (s.chan ch) := by
      rw [pickup_claims hd hu hh, placeFrame_chan]; exact State.modChan_chan_self _ ch _
    obtain ⟨h1, h2, h3, h4⟩ := holdPort_channel (s.port e.target)
    rw [hport, hchan]
    refine ⟨h1, h2, h3, h4, rfl, ?_, ?_, ?_⟩ <;> rw [pickup_claims hd hu hh] <;> rfl

end Sys2Proof.Machine
end

section
/-! PROOFS of O47 to O49: the local claim from its settle to its RELEASE, and what foreign claims do to the view and to it. -/

namespace Sys2Proof.Machine

open Sys2Proof

/-! ### The frame that leaves the line (R147) -/

section
variable {d : Departure} {o : OnLine} {s u : State}

/-- A departure changes the line and the counters alone. -/
theorem FrameLeaves.rest (h : FrameLeaves d o s u) : u = { s with line := u.line, counters := u.counters } := by
  obtain ⟨-, h⟩ := h
  cases d with
  | sent => obtain ⟨-, -, rfl⟩ | ⟨-, rfl⟩ := h <;> rfl
  | voided => obtain ⟨v, rfl, ⟨-, -, rfl⟩ | ⟨-, rfl⟩⟩ := h <;> rfl
  | abandoned => obtain ⟨read, n, -, -, -, -, rfl⟩ := h; rfl
  | discarded => exact h.elim

theorem withoutFrame_rest (h : FrameLeaves d o s u) (test : Frame → Bool) :
    withoutFrame test u = { s with line := (withoutFrame test u).line, counters := u.counters } := by
  rw [withoutFrame, h.rest]

end

/-! ### The waiting channel moves on (R86, R90, R91) -/

theorem moveReady_one {ready : State → ChannelId → Bool} {move : ChannelId → State → State} {s : State} {ch : ChannelId}
    (h : ready s ch = true) (hn : ready s (otherChannel ch) = false) : moveReady ready move s = move ch s := by
  match ch, h, hn with
  | 0, h, hn => simp [moveReady, h, show ready s 1 = false from hn]
  | 1, h, hn => simp [moveReady, h, show ready s 0 = false from hn]

theorem readyToClaim_iff {s : State} {ch : ChannelId} : readyToClaim s ch = true ↔
    (s.chan ch).phase = .preparing ∧ (s.chan ch).settled = true ∧ ∃ m e, (s.chan ch).meas = some m ∧ heldEntry ch s = some e ∧
      ∀ v ∈ s.view, conflicts s.station.geometry m.target v.target = true → e.priority = .urgent ∧ v.priority = .background := by
  cases hm : (s.chan ch).meas <;> cases he : heldEntry ch s <;>
    simp [readyToClaim, hm, he, countedConflict_false, and_assoc]

theorem readyToBurst_iff {s : State} {ch : ChannelId} : readyToBurst s ch = true ↔ (s.chan ch).phase = .waitYield ∧
    ∃ m, (s.chan ch).meas = some m ∧ ∀ v ∈ s.view, conflicts s.station.geometry m.target v.target = false := by
  cases hm : (s.chan ch).meas <;> simp [readyToBurst, hm, viewConflicts]

/-- A channel whose claim l has become ACTIVE, with the sequence number n, before the first shot of e's burst (R89, R91, R125). -/
def burstingChannel (e : Entry) (l : LocalClaim) (n : Count16) (c : Channel) : Channel :=
  { c with
    phase := .bursting, sequence := some n, stage := .gap, shot := ⟨true, 0, 16⟩, launched := 0
    sums := PerPair.const (zeroSums (captureWindow e.reach)), results := [], working := none
    claim := some { l with state := .active, holdoff := ⟨false, 0, 0⟩, yieldTimer := ⟨false, 0, 0⟩ } }

theorem enterBursting_of {s : State} {ch : ChannelId} {e : Entry} {l : LocalClaim} (he : heldEntry ch s = some e)
    (hl : (s.chan ch).claim = some l) :
    enterBursting ch s = { s.modChan ch (burstingChannel e l s.sequence) with sequence := s.sequence + 1 } := by
  rw [← State.modChan_congr s ch
    (fun c => { c with
      phase := .bursting, sequence := some s.sequence, stage := .gap, shot := Timer.start 16, launched := 0
      sums := PerPair.const (zeroSums (captureWindow e.reach)), results := [], working := none
      claim := c.claim.map (fun l => { l with state := .active, holdoff := Timer.off, yieldTimer := Timer.off }) })
    (burstingChannel e l s.sequence) (by rw [hl]; rfl)]
  simp only [enterBursting, he]

/-! ### The judgement of the sent claim (R157, R163) -/

section
variable {ch : ChannelId} {l : LocalClaim} {x : StopOutcome} {s : State}

/-- The judgement of the sent claim against a view entry that conflicts with it. -/
def Judged (l : LocalClaim) (s : State) (f : Finding) : Prop :=
  ∃ v ∈ s.view, conflicts s.station.geometry l.target v.target = true ∧
    judge l.priority s.station.number v.priority v.station = f

theorem any_finding_iff {f : Finding} :
    ((viewConflicts l.target s).map (judgeEntry l.priority s.station.number)).any (· == f) = true ↔ Judged l s f := by
  simp [Judged, viewConflicts, judgeEntry]

theorem ownFinding_withdrawn (h : Judged l s .newLoses) : ownFinding l s = some .withdrawn := by
  simp only [ownFinding, any_finding_iff.2 h, if_true]

theorem ownFinding_preempted (hn : ¬Judged l s .newLoses) (h : Judged l s .newYields) : ownFinding l s = some .preempted := by
  simp only [ownFinding, if_neg (mt any_finding_iff.1 hn), any_finding_iff.2 h, if_true]

theorem ownFinding_none (hn : ¬Judged l s .newLoses) (h : ¬Judged l s .newYields) : ownFinding l s = none := by
  simp only [ownFinding, if_neg (mt any_finding_iff.1 hn), if_neg (mt any_finding_iff.1 h)]

theorem judgeOwn_withdrawn (h : Judged l s .newLoses) :
    judgeOwn ch l s = stopNow ch (mergeStop (s.chan ch).stop .withdrawn) s := by
  simp only [judgeOwn, ownFinding_withdrawn h, if_true]

theorem judgeOwn_preempted (hn : ¬Judged l s .newLoses) (h : Judged l s .newYields) :
    judgeOwn ch l s = stopNow ch (mergeStop (s.chan ch).stop .preempted) (removeLost l.priority s.station.number l.target s) := by
  simp only [judgeOwn, ownFinding_preempted hn h, reduceCtorEq, Option.some.injEq, if_false]

theorem judgeOwn_stands (hn : ¬Judged l s .newLoses) (h : ¬Judged l s .newYields) (hs : (s.chan ch).stop = none) :
    judgeOwn ch l s = removeLost l.priority s.station.number l.target s := by
  simp only [judgeOwn, ownFinding_none hn h, hs, reduceCtorEq, if_false]

theorem judgeOwn_stops (hn : ¬Judged l s .newLoses) (h : ¬Judged l s .newYields) (hs : (s.chan ch).stop = some x) :
    judgeOwn ch l s = stopNow ch x (removeLost l.priority s.station.number l.target s) := by
  simp only [judgeOwn, ownFinding_none hn h, hs, reduceCtorEq, if_false]

theorem removeLost_apart {pr : Priority} {st : StationNo} {g : GlobalPort}
    (h : ∀ v ∈ s.view, conflicts s.station.geometry g v.target = false) : removeLost pr st g s = s := by
  have : s.view.filter (fun v => !(conflicts s.station.geometry g v.target && judgeEntry pr st v == .knownLoses)) = s.view :=
    List.filter_eq_self.2 fun v hv => by simp [h v hv]
  simp only [removeLost, this]

end

/-! ### The local claim's commands -/

section
variable {ch : ChannelId} {m : Measurement} {e : Entry} {l : LocalClaim} {d : Departure} {o : OnLine} {s u w : State}

theorem exec_claimFrameDeparture (h : FrameLeaves d o s u) (ho : o.frame.isFor .claim ch = true) :
    exec (.claimFrameDeparture ch d) s = .next (react (claimDeparted ch d (withoutFrame (fun f => f.isFor .claim ch) u))) := by
  refine congrArg Host.Outcome.next ((if_pos (h.canDepart false _ ho)).trans ?_)
  rw [h.departs.2]

theorem exec_claim_unsent (h : FrameLeaves d o s u) (ho : o.frame.isFor .claim ch = true) (hd : d = .voided ∨ d = .abandoned)
    (hw : w = withoutFrame (fun f => f.isFor .claim ch) u) :
    exec (.claimFrameDeparture ch d) s = .next (react (stopNow ch (mergeStop (s.chan ch).stop .withdrawn) w)) := by
  have hc : w.chan ch = s.chan ch := by rw [hw, withoutFrame_rest h]; rfl
  rw [exec_claimFrameDeparture h ho, ← hw, ← hc]
  rcases hd with rfl | rfl <;> rfl

/-- The own claim as it stands in HOLDOFF, its timer still to start (R157). -/
def holdingOff (l : LocalClaim) : LocalClaim := { l with state := .holdoff, holdoff := ⟨false, 0, 0⟩ }

/-- The CLAIM sent intact is judged in HOLDOFF (R157). -/
theorem exec_claim_sent (h : FrameLeaves .sent o s u) (ho : o.frame.isFor .claim ch = true) (hl : (s.chan ch).claim = some l)
    (hw : w = (withoutFrame (fun f => f.isFor .claim ch) u).modChan ch (fun c => { c with claim := some (holdingOff l) })) :
    exec (.claimFrameDeparture ch .sent) s = .next (react (judgeOwn ch (holdingOff l) w)) := by
  have hc : (withoutFrame (fun f => f.isFor .claim ch) u).chan ch = s.chan ch := by rw [withoutFrame_rest h]; rfl
  have hstart : (withoutFrame (fun f => f.isFor .claim ch) u).modChan ch startHoldoff = w :=
    (State.modChan_congr _ _ _ _ (by rw [hc, startHoldoff, hl]; rfl)).trans hw.symm
  have hclaim : (w.chan ch).claim = some (holdingOff l) := by rw [hw, State.modChan_chan_self]
  rw [exec_claimFrameDeparture h ho]
  simp only [claimDeparted, claimSentIntact, hstart, hclaim]

theorem exec_holdoffEnd (hp : (s.chan ch).phase = .claiming) (hl : (s.chan ch).claim = some l) (hs : l.state = .holdoff) :
    exec (.holdoffEnd ch) s = .next (react (endHoldoff ch l s)) := by
  have h : holdoffClaim (s.chan ch) = some l := by simp only [holdoffClaim, hp, hl, if_pos hs]
  refine congrArg Host.Outcome.next ?_
  simp only [h]

theorem viewConflicts_isEmpty {g : GlobalPort} : (viewConflicts g s).isEmpty = true ↔
    ∀ v ∈ s.view, conflicts s.station.geometry g v.target = false := by simp [viewConflicts]

/-- What the sent claim's judgement in the state w comes to, by the view of s (R157, R163, R165, R166). -/
theorem claim_sent_judged (hstop : (w.chan ch).stop = (s.chan ch).stop) (hview : w.view = s.view) (hst : w.station = s.station)
    (hx : exec (.claimFrameDeparture ch .sent) s = .next (react (judgeOwn ch (holdingOff l) w))) :
    ((∀ v ∈ s.view, conflicts s.station.geometry l.target v.target = false) →
      ((s.chan ch).stop = none → exec (.claimFrameDeparture ch .sent) s = .next (react w)) ∧
      (∀ x, (s.chan ch).stop = some x →
        ∃ t, exec (.claimFrameDeparture ch .sent) s = .next (react t) ∧ StopTaken ch x w t)) ∧
    ((∃ v ∈ s.view, conflicts s.station.geometry l.target v.target = true ∧
        judge l.priority s.station.number v.priority v.station = .newLoses) →
      ∃ t, exec (.claimFrameDeparture ch .sent) s = .next (react t) ∧
        StopTaken ch (mergeStop (s.chan ch).stop .withdrawn) w t) ∧
    (∀ u, (∀ v ∈ s.view, conflicts s.station.geometry l.target v.target = true →
          judge l.priority s.station.number v.priority v.station ≠ .newLoses) →
        u = { w with view := s.view.filter (fun v => !(conflicts s.station.geometry l.target v.target &&
          judge l.priority s.station.number v.priority v.station == .knownLoses)) } →
      ((∃ v ∈ s.view, conflicts s.station.geometry l.target v.target = true ∧
          judge l.priority s.station.number v.priority v.station = .newYields) →
        ∃ t, exec (.claimFrameDeparture ch .sent) s = .next (react t) ∧
          StopTaken ch (mergeStop (s.chan ch).stop .preempted) u t) ∧
      ((∀ v ∈ s.view, conflicts s.station.geometry l.target v.target = true →
          judge l.priority s.station.number v.priority v.station ≠ .newYields) →
        ((s.chan ch).stop = none → exec (.claimFrameDeparture ch .sent) s = .next (react u)) ∧
        (∀ x, (s.chan ch).stop = some x →
          ∃ t, exec (.claimFrameDeparture ch .sent) s = .next (react t) ∧ StopTaken ch x u t))) := by
  have hj : ∀ f, Judged (holdingOff l) w f ↔ ∃ v ∈ s.view, conflicts s.station.geometry l.target v.target = true ∧
      judge l.priority s.station.number v.priority v.station = f := fun f => by rw [Judged, hview, hst]; rfl
  rw [hx]
  refine ⟨fun hno => ?_, fun h => ?_, fun u hno hu => ?_⟩
  · have hn : ∀ f, ¬Judged (holdingOff l) w f := fun f h => by
      obtain ⟨v, hv, hc, -⟩ := (hj f).1 h
      rw [hno v hv] at hc; cases hc
    have hkept : removeLost (holdingOff l).priority w.station.number (holdingOff l).target w = w :=
      removeLost_apart (by rw [hview, hst]; exact hno)
    refine ⟨fun hs => ?_, fun x hs => ⟨_, ?_, stopTaken_stopNow ch x w⟩⟩
    · rw [judgeOwn_stands (hn _) (hn _) (hstop.trans hs), hkept]
    · rw [judgeOwn_stops (hn _) (hn _) (hstop.trans hs), hkept]
  · exact ⟨_, by rw [judgeOwn_withdrawn ((hj _).2 h), hstop], stopTaken_stopNow ch _ w⟩
  · have hn : ¬Judged (holdingOff l) w .newLoses := fun h => by
      obtain ⟨v, hv, hc, hf⟩ := (hj _).1 h
      exact hno v hv hc hf
    have hlost : removeLost (holdingOff l).priority w.station.number (holdingOff l).target w = u := by
      rw [hu, removeLost, hview, hst]; rfl
    refine ⟨fun h => ⟨_, by rw [judgeOwn_preempted hn ((hj _).2 h), hstop, hlost], stopTaken_stopNow ch _ u⟩, fun h => ?_⟩
    have hn' : ¬Judged (holdingOff l) w .newYields := fun h' => by
      obtain ⟨v, hv, hc, hf⟩ := (hj _).1 h'
      exact h v hv hc hf
    refine ⟨fun hs => ?_, fun x hs => ⟨_, ?_, stopTaken_stopNow ch x u⟩⟩
    · rw [judgeOwn_stands hn hn' (hstop.trans hs), hlost]
    · rw [judgeOwn_stops hn hn' (hstop.trans hs), hlost]

end

/-- Settles O47: how waiting channels move on, and the commands of the local claim. -/
theorem localClaimsRunFromSettleToRelease : Obligations.LocalClaimsRunFromSettleToRelease := by
  refine ⟨fun ready move s => ⟨fun ch => moveReady_one, fun h0 h1 => by simp [moveReady, h0, h1],
    fun h0 h1 => by simp [moveReady, h0, h1]⟩, fun ch s => ⟨readyToClaim_iff, readyToBurst_iff, fun m e hm he => ⟨?_, fun l hl => ?_⟩⟩,
    fun ch m e l o s => ⟨fun hp hr => ?_, fun hl hm he ht => ⟨fun hq ho => ⟨fun d u w hd hf hw => ?_, fun x w hf hw => ?_⟩,
      fun hp hs => ⟨fun hno => ?_, fun hex => ⟨fun hu hb => ?_, fun h => ?_⟩⟩, fun hp hs hstop => ?_⟩, fun d u hf ho hp => ?_⟩⟩
  · simp only [enterClaiming, hm, he]; rfl
  · rw [enterBursting_of he hl]
    unfold burstingChannel
    cases e.reach <;> rfl
  · exact congrArg Host.Outcome.next (onChan_pos (by simp [hp, hr]))
  · exact ⟨_, exec_claim_unsent hf ho hd hw, stopTaken_stopNow ch _ w⟩
  · have hx := exec_claim_sent hf ho hl hw
    have hc : w.chan ch = { s.chan ch with claim := some (holdingOff l) } := by
      rw [hw, State.modChan_chan_self, withoutFrame_rest hf]; rfl
    have hrest : w.view = s.view ∧ w.station = s.station := by
      rw [hw, State.modChan_view, State.modChan_station, withoutFrame_rest hf]; exact ⟨rfl, rfl⟩
    exact claim_sent_judged (by rw [hc]) hrest.1 hrest.2 hx
  · have hc : (enterBursting ch s).chan ch = burstingChannel e l s.sequence (s.chan ch) := by
      rw [enterBursting_of he hl]; exact State.modChan_chan_self s ch (burstingChannel e l s.sequence)
    refine ⟨enterBursting ch s, ?_, ?_, hc⟩
    · rw [exec_holdoffEnd hp hl hs, endHoldoff, if_pos (viewConflicts_isEmpty.2 hno)]
    · rw [hc, enterBursting_of he hl]; rfl
  · rw [exec_holdoffEnd hp hl hs, endHoldoff, if_neg, if_pos]
    · rw [State.modChan_congr s ch enterWaitYield]
      rw [enterWaitYield, hl]; rfl
    · refine ⟨hu, List.all_eq_true.2 fun v hv => ?_⟩
      obtain ⟨h1, h2⟩ := List.mem_filter.1 hv
      simpa using hb v h1 h2
    · rw [viewConflicts_isEmpty]
      intro hno
      obtain ⟨v, hv, hc⟩ := hex
      rw [hno v hv] at hc; cases hc
  · refine ⟨_, ?_, stopTaken_stopNow ch _ s⟩
    rw [exec_holdoffEnd hp hl hs, endHoldoff, if_neg, if_neg]
    · rintro ⟨hu, hb⟩
      rcases h with h | ⟨v, hv, hc, hv'⟩
      · exact h hu
      · simp only [viewConflicts, List.all_filter, List.all_eq_true] at hb
        have := hb v hv
        simp [hc, hv'] at this
    · rw [viewConflicts_isEmpty]
      intro hno
      obtain ⟨v, hv, hc⟩ := hex
      rw [hno v hv] at hc; cases hc
  · have hx := exec_yieldLimit hp
    rw [hstop] at hx
    exact ⟨_, hx, stopNow_sent ch m e l .withdrawn s hm he ht hl hs (.inr rfl)⟩
  · have hc : (withoutFrame (fun f => f.isFor .release ch) u).chan ch = s.chan ch := by rw [withoutFrame_rest hf]; rfl
    refine congrArg Host.Outcome.next ((if_pos (hf.canDepart _ _ ho)).trans ?_)
    rw [hf.departs.2]
    exact congrArg react (State.modChan_congr _ ch channelReleased _ (by rw [hc, channelReleased, hp]))

end Sys2Proof.Machine
end

section
/-! PROOFS of O48 and O49: a foreign CLAIM at the claim view and at the local claims. -/

namespace Sys2Proof.Machine

open Sys2Proof

/-! ### What a stop leaves of a channel's claim and of the other channel -/

section
variable {ch : ChannelId} {o : StopOutcome} {l : LocalClaim} {s : State}

theorem endWith_other (ch : ChannelId) (o : StopOutcome) (s : State) :
    (endWith ch o s).chan (otherChannel ch) = s.chan (otherChannel ch) := by
  simp only [endWith]
  rw [State.modChan_chan_ne _ _ _ _ (otherChannel_ne ch)]
  split
  · rfl
  · cases o
    · exact finalOutcome_chan _ _ _ _
    · exact finalOutcome_chan _ _ _ _
    · rw [giveBack_eq]; rfl
    · rw [giveBack_eq]; rfl

theorem stopNow_other (ch : ChannelId) (o : StopOutcome) (s : State) :
    (stopNow ch o s).chan (otherChannel ch) = s.chan (otherChannel ch) := by
  rw [stopNow_eq]
  split
  · rw [(releaseClaim_only ch _).other, endWith_other]
  · rw [(dropUnsentClaim_only ch _).other, endWith_other]

/-- A stop does nothing, pends, or takes effect (R96). -/
theorem stopChannel_cases (ch : ChannelId) (o : StopOutcome) (s : State) : stopChannel ch o s = s ∨
    stopChannel ch o s = s.modChan ch (fun c => { c with stop := some (mergeStop (s.chan ch).stop o) }) ∨
    stopChannel ch o s = stopNow ch (mergeStop (s.chan ch).stop o) s := by
  cases hp : (s.chan ch).phase with
  | idle => exact .inl (stopChannel_idle (.inl hp))
  | releasing => exact .inl (stopChannel_idle (.inr hp))
  | preparing => exact .inr (.inr (stopChannel_now (.inl hp)))
  | waitYield => exact .inr (.inr (stopChannel_now (.inr (.inl hp))))
  | claiming =>
    cases hl : claimOnLine ch s with
    | true => exact .inr (.inl (stopChannel_pends (.inl ⟨hp, hl⟩)))
    | false => exact .inr (.inr (stopChannel_now (.inr (.inr (.inl ⟨hp, hl⟩)))))
  | bursting =>
    by_cases hc : (s.chan ch).stage = .capture
    · exact .inr (.inl (stopChannel_pends (.inr ⟨hp, hc⟩)))
    · exact .inr (.inr (stopChannel_now (.inr (.inr (.inr ⟨hp, hc⟩)))))

theorem stopChannel_other (ch : ChannelId) (o : StopOutcome) (s : State) :
    (stopChannel ch o s).chan (otherChannel ch) = s.chan (otherChannel ch) := by
  rcases stopChannel_cases ch o s with h | h | h <;> rw [h]
  · exact State.modChan_chan_ne _ _ _ _ (otherChannel_ne ch)
  · exact stopNow_other _ _ _

/-- The channel has no claim that is still to be sent. -/
def NothingQueued (c : Channel) : Prop := ∀ l, c.claim = some l → l.state ≠ .queued

theorem stopNow_nothingQueued (h : NothingQueued (s.chan ch)) : NothingQueued ((stopNow ch o s).chan ch) := fun k hk => by
  have hc := (endWith_claim ch o s).2.1
  rw [stopNow_eq] at hk
  cases hl : (s.chan ch).claim with
  | none =>
    rw [if_neg (by simp [claimSent, hl]), dropUnsentClaim, State.modChan_chan_self] at hk
    cases hk
  | some l =>
    rw [if_pos (claimSent_iff.2 ⟨l, hl, h l hl⟩)] at hk
    have hr := releaseClaim_spec ch l (endWith ch o s) (hc.trans hl)
    rw [ClaimReleased] at hr
    split at hr
    · rw [hr.2.1] at hk; cases hk
    · rw [hr.2.1] at hk; cases hk; exact ClaimState.noConfusion

/-- A stop releases a sent claim or lets it stand (R97, R99). -/
theorem stopChannel_nothingQueued (h : NothingQueued (s.chan ch)) : NothingQueued ((stopChannel ch o s).chan ch) := by
  rcases stopChannel_cases ch o s with hs | hs | hs <;> rw [hs]
  · exact h
  · rw [State.modChan_chan_self]; exact h
  · exact stopNow_nothingQueued h

end

/-! ### A foreign claim at one own claim (R163 to R165) -/

section
variable {ch : ChannelId} {l : LocalClaim} {apart : Bool} {f : Finding} {pr : Priority} {c : ForeignClaim} {s u : State}

theorem strikes_cases (ch : ChannelId) (l : LocalClaim) (apart : Bool) (f : Finding) (s : State) :
    strikes ch l apart f s = s ∨ l.state ≠ .queued ∧ ∃ o, strikes ch l apart f s = stopChannel ch o s := by
  rw [strikes]
  split
  · exact .inl rfl
  next h =>
    have hq : l.state ≠ .queued := fun hq => h (.inr hq)
    split
    · exact .inr ⟨hq, _, rfl⟩
    · split
      · exact .inr ⟨hq, _, rfl⟩
      · split
        · exact .inr ⟨hq, _, rfl⟩
        · exact .inl rfl

theorem strikes_other : (strikes ch l apart f s).chan (otherChannel ch) = s.chan (otherChannel ch) := by
  rcases strikes_cases ch l apart f s with h | ⟨-, o, h⟩ <;> rw [h]
  exact stopChannel_other _ _ _

theorem strikes_station : (strikes ch l apart f s).station = s.station := by
  rcases strikes_cases ch l apart f s with h | ⟨-, o, h⟩ <;> rw [h]
  exact (stopChannel_keeps _ _ _).station

theorem withdraws_other : (withdraws ch l apart pr s).chan (otherChannel ch) = s.chan (otherChannel ch) := by
  rw [withdraws]
  split
  · exact stopChannel_other _ _ _
  · rfl

theorem withdraws_station : (withdraws ch l apart pr s).station = s.station := by
  rw [withdraws]
  split
  · exact (stopChannel_keeps _ _ _).station
  · rfl

theorem localFinding_none (h : (s.chan ch).claim = none) : localFinding c ch s = none := by
  simp only [localFinding, knownClaim, h]

theorem localFinding_of (h : (s.chan ch).claim = some l) : localFinding c ch s =
    if l.state ≠ .queued ∧ conflicts s.station.geometry c.target l.target = true then
      some (judge c.priority c.station l.priority s.station.number) else none := by
  by_cases hq : l.state = .queued <;> simp [localFinding, knownClaim, h, hq]

theorem strikeLocal_none (h : (u.chan ch).claim = none) (f : Option Finding) : strikeLocal ch f u = u := by
  simp only [strikeLocal, knownClaim, h]

/-- Table 9-4 at one own claim. -/
theorem strikeLocal_of (h : (s.chan ch).claim = some l) (hu : (u.chan ch).claim = some l) :
    strikeLocal ch (localFinding c ch s) u = strikes ch l (!conflicts s.station.geometry c.target l.target)
      (judge c.priority c.station l.priority s.station.number) u := by
  rw [localFinding_of h]
  generalize judge c.priority c.station l.priority s.station.number = f
  by_cases hc : conflicts s.station.geometry c.target l.target = true
  · cases hl : l.state <;> cases f <;> simp [strikeLocal, knownClaim, hu, hl, hc, strikes, localEffect]
  · by_cases hq : l.state = .queued <;> simp [strikeLocal, knownClaim, hu, hq, hc, strikes]

theorem withdrawQueued_none (h : (u.chan ch).claim = none) : withdrawQueued c ch u = u := by
  simp only [withdrawQueued, h]

theorem withdrawQueued_of (h : (u.chan ch).claim = some l) : withdrawQueued c ch u =
    withdraws ch l (!conflicts u.station.geometry c.target l.target) c.priority u := by
  simp only [withdrawQueued, h, withdraws, Bool.not_eq_false']
  congr 1
  grind

theorem withdrawQueued_nothing (h : NothingQueued (u.chan ch)) : withdrawQueued c ch u = u := by
  cases hl : (u.chan ch).claim with
  | none => exact withdrawQueued_none hl
  | some l => rw [withdrawQueued_of hl, withdraws, if_neg fun k => h l hl k.2.1]

/-- What R164 does to the own claim l after Table 9-4 has struck it. -/
theorem withdrawQueued_struck (h : (s.chan ch).claim = some l) (hu : u.chan ch = (strikes ch l apart f s).chan ch) :
    withdrawQueued c ch u = withdraws ch l (!conflicts u.station.geometry c.target l.target) c.priority u := by
  rcases strikes_cases ch l apart f s with hs | ⟨hq, o, hs⟩
  · exact withdrawQueued_of (by rw [hu, hs, h])
  · have hn : NothingQueued (u.chan ch) := by
      rw [hu, hs]
      exact stopChannel_nothingQueued fun k hk => by rw [h] at hk; cases hk; exact hq
    rw [withdrawQueued_nothing hn, withdraws, if_neg fun k => hq k.2.1]

/-! ### The claim against the view and the own claims together (R159, R163) -/

/-- The new claim loses a judgement against the view. -/
def LosesToView (c : ForeignClaim) (s : State) : Prop :=
  ∃ v ∈ s.view, conflicts s.station.geometry c.target v.target = true ∧
    judge c.priority c.station v.priority v.station = .newLoses

theorem claimLoses_iff : claimLoses c s = true ↔
    LosesToView c s ∨ localFinding c 0 s = some .newLoses ∨ localFinding c 1 s = some .newLoses := by
  simp [claimLoses, LosesToView, viewConflicts, judgeEntry, or_assoc]

theorem localFinding_loses (h : (s.chan ch).claim = some l) : localFinding c ch s = some .newLoses ↔
    l.state ≠ .queued ∧ conflicts s.station.geometry c.target l.target = true ∧
      judge c.priority c.station l.priority s.station.number = .newLoses := by
  rw [localFinding_of h]
  split
  next hk => simp [hk.1, hk.2]
  next hk => simp only [reduceCtorEq, false_iff]; exact fun k => hk ⟨k.1, k.2.1⟩

/-- The view that a standing claim c leaves, with c entered in HOLDOFF (R159, R166). -/
def viewWith (c : ForeignClaim) (s : State) : List ViewEntry :=
  makeRoom (s.view.filter (fun v => !(conflicts s.station.geometry c.target v.target &&
      judge c.priority c.station v.priority v.station == .knownLoses))) ++
    [⟨c.station, c.number, false, c.target, c.priority, c.duration, s.now + 500, s.now + 64 * c.duration + 1500⟩]

/-- The standing claim c has entered the view. -/
def entered (c : ForeignClaim) (s : State) : State := { s with view := viewWith c s }

theorem enterView_removeLost : enterView c (removeLost c.priority c.station c.target s) = entered c s := by
  have hlife : viewEntryOf c s.now = ⟨c.station, c.number, false, c.target, c.priority, c.duration, s.now + 500,
      s.now + 64 * c.duration + 1500⟩ := by
    simp only [viewEntryOf, holdoffTime, entryLife, Nat.add_assoc]
  rw [entered, viewWith, ← hlife]
  rfl

theorem claimStands_eq : claimStands c s = strikeLocal 1 (localFinding c 1 s) (strikeLocal 0 (localFinding c 0 s)
    (entered c s)) := by rw [claimStands, enterView_removeLost]

/-- The state in which a claim is judged: the view without the entry of its key (R159). -/
def withoutOwnEntry (c : ForeignClaim) (s : State) : State := { s with view := withoutKey c.station c.number s.view }

theorem takeClaim_lost (h : claimLoses c (withoutOwnEntry c s) = true) :
    takeClaim c s = withdrawQueued c 1 (withdrawQueued c 0 (withoutOwnEntry c s)) :=
  congrArg (fun u => withdrawQueued c 1 (withdrawQueued c 0 u)) (if_pos h)

theorem takeClaim_stands (h : ¬claimLoses c (withoutOwnEntry c s) = true) :
    takeClaim c s = withdrawQueued c 1 (withdrawQueued c 0 (claimStands c (withoutOwnEntry c s))) :=
  congrArg (fun u => withdrawQueued c 1 (withdrawQueued c 0 u)) (if_neg h)

/-- Without own claims the judgement is the view's alone. -/
theorem claimLoses_free (h : ∀ ch, (s.chan ch).claim = none) : claimLoses c s = true ↔ LosesToView c s := by
  simp [claimLoses_iff, localFinding_none (h 0), localFinding_none (h 1)]

theorem takeClaim_free_lost (h : ∀ ch, (s.chan ch).claim = none) (hl : LosesToView c (withoutOwnEntry c s)) :
    takeClaim c s = withoutOwnEntry c s := by
  rw [takeClaim_lost ((claimLoses_free (s := withoutOwnEntry c s) h).2 hl),
    withdrawQueued_none (u := withoutOwnEntry c s) (h 0), withdrawQueued_none (u := withoutOwnEntry c s) (h 1)]

theorem takeClaim_free_stands (h : ∀ ch, (s.chan ch).claim = none) (hl : ¬LosesToView c (withoutOwnEntry c s)) :
    takeClaim c s = entered c (withoutOwnEntry c s) := by
  have hn : ∀ ch, ((entered c (withoutOwnEntry c s)).chan ch).claim = none := h
  rw [takeClaim_stands (mt (claimLoses_free (s := withoutOwnEntry c s) h).1 hl), claimStands_eq, strikeLocal_none (hn 0),
    strikeLocal_none (hn 1), withdrawQueued_none (hn 0), withdrawQueued_none (hn 1)]

/-- With one own claim l the judgement is the view's and that claim's. -/
theorem claimLoses_one (hn : (s.chan (otherChannel ch)).claim = none) (h : (s.chan ch).claim = some l) :
    claimLoses c s = true ↔ LosesToView c s ∨ l.state ≠ .queued ∧ conflicts s.station.geometry c.target l.target = true ∧
      judge c.priority c.station l.priority s.station.number = .newLoses := by
  rw [claimLoses_iff, ← localFinding_loses h]
  match ch, h, hn with
  | 0, _, hn => simp [localFinding_none (ch := 1) hn]
  | 1, _, hn => simp [localFinding_none (ch := 0) hn]

theorem takeClaim_one_lost (hn : (s.chan (otherChannel ch)).claim = none) (h : (s.chan ch).claim = some l)
    (hl : claimLoses c (withoutOwnEntry c s) = true) :
    takeClaim c s = withdraws ch l (!conflicts s.station.geometry c.target l.target) c.priority (withoutOwnEntry c s) := by
  rw [takeClaim_lost hl]
  match ch, h, hn with
  | 0, h, hn =>
    rw [withdrawQueued_of (u := withoutOwnEntry c s) (ch := 0) h]
    refine withdrawQueued_none ?_
    rw [show (1 : ChannelId) = otherChannel 0 from rfl, withdraws_other]
    exact hn
  | 1, h, hn =>
    rw [withdrawQueued_none (u := withoutOwnEntry c s) (ch := 0) hn, withdrawQueued_of (u := withoutOwnEntry c s) (ch := 1) h]
    rfl

theorem takeClaim_one_stands (hn : (s.chan (otherChannel ch)).claim = none) (h : (s.chan ch).claim = some l)
    (hl : ¬claimLoses c (withoutOwnEntry c s) = true) :
    takeClaim c s = withdraws ch l (!conflicts s.station.geometry c.target l.target) c.priority
      (strikes ch l (!conflicts s.station.geometry c.target l.target) (judge c.priority c.station l.priority s.station.number)
        (entered c (withoutOwnEntry c s))) := by
  rw [takeClaim_stands hl, claimStands_eq]
  have hstruck : strikeLocal ch (localFinding c ch (withoutOwnEntry c s)) (entered c (withoutOwnEntry c s)) =
      strikes ch l (!conflicts s.station.geometry c.target l.target) (judge c.priority c.station l.priority s.station.number)
        (entered c (withoutOwnEntry c s)) := strikeLocal_of (s := withoutOwnEntry c s) h h
  generalize hS : strikes ch l (!conflicts s.station.geometry c.target l.target)
    (judge c.priority c.station l.priority s.station.number) (entered c (withoutOwnEntry c s)) = S at hstruck ⊢
  have hother : (S.chan (otherChannel ch)).claim = none := by rw [← hS, strikes_other]; exact hn
  have hwith : withdrawQueued c ch S = withdraws ch l (!conflicts s.station.geometry c.target l.target) c.priority S := by
    rw [withdrawQueued_struck (s := entered c (withoutOwnEntry c s)) h (by rw [← hS]), ← hS, strikes_station]
    rfl
  match ch, h, hn, hstruck, hwith, hother with
  | 0, h, hn, hstruck, hwith, hother =>
    rw [hstruck, strikeLocal_none (ch := 1) hother, hwith]
    refine withdrawQueued_none ?_
    rw [show (1 : ChannelId) = otherChannel 0 from rfl, withdraws_other]
    exact hother
  | 1, h, hn, hstruck, hwith, hother =>
    rw [strikeLocal_none (u := entered c (withoutOwnEntry c s)) (ch := 0) hn, hstruck, withdrawQueued_none (ch := 0) hother, hwith]

theorem takeClaim_two_lost {a b : LocalClaim} (ha : (s.chan 0).claim = some a) (hb : (s.chan 1).claim = some b)
    (hl : claimLoses c (withoutOwnEntry c s) = true) :
    takeClaim c s = withdraws 1 b (!conflicts s.station.geometry c.target b.target) c.priority
      (withdraws 0 a (!conflicts s.station.geometry c.target a.target) c.priority (withoutOwnEntry c s)) := by
  rw [takeClaim_lost hl, withdrawQueued_of (u := withoutOwnEntry c s) (ch := 0) ha, withdrawQueued_of (l := b), withdraws_station]
  · rfl
  · rw [show (1 : ChannelId) = otherChannel 0 from rfl, withdraws_other]
    exact hb

theorem takeClaim_two_stands {a b : LocalClaim} (ha : (s.chan 0).claim = some a) (hb : (s.chan 1).claim = some b)
    (hl : ¬claimLoses c (withoutOwnEntry c s) = true) :
    takeClaim c s = withdraws 1 b (!conflicts s.station.geometry c.target b.target) c.priority
      (withdraws 0 a (!conflicts s.station.geometry c.target a.target) c.priority
        (strikes 1 b (!conflicts s.station.geometry c.target b.target) (judge c.priority c.station b.priority s.station.number)
          (strikes 0 a (!conflicts s.station.geometry c.target a.target) (judge c.priority c.station a.priority s.station.number)
            (entered c (withoutOwnEntry c s))))) := by
  rw [takeClaim_stands hl, claimStands_eq]
  have h0 : (1 : ChannelId) = otherChannel 0 := rfl
  have h1 : (0 : ChannelId) = otherChannel 1 := rfl
  rw [strikeLocal_of (s := withoutOwnEntry c s) (u := entered c (withoutOwnEntry c s)) (ch := 0) ha ha,
    strikeLocal_of (s := withoutOwnEntry c s) (ch := 1) hb (by rw [h0, strikes_other]; exact hb)]
  generalize hS0 : strikes 0 a _ _ (entered c (withoutOwnEntry c s)) = S0
  have hchan1 : S0.chan 1 = s.chan 1 := by rw [← hS0, h0, strikes_other]; rfl
  have hst : S0.station = s.station := by rw [← hS0, strikes_station]; rfl
  rw [withdrawQueued_struck (ch := 0) (l := a) (s := (entered c (withoutOwnEntry c s))) ha
      (by rw [h1, strikes_other, ← h1, ← hS0]),
    withdrawQueued_struck (ch := 1) (l := b) (s := S0) (by rw [hchan1, hb]) (by rw [h0, withdraws_other]),
    withdraws_station, strikes_station, hst, ← hS0]
  rfl

/-- With a claim of each channel the judgement is the view's and those two claims'. -/
theorem claimLoses_two {a b : LocalClaim} (ha : (s.chan 0).claim = some a) (hb : (s.chan 1).claim = some b) :
    claimLoses c s = true ↔ LosesToView c s ∨ ∃ l, (l = a ∨ l = b) ∧ l.state ≠ .queued ∧
      conflicts s.station.geometry c.target l.target = true ∧ judge c.priority c.station l.priority s.station.number = .newLoses := by
  rw [claimLoses_iff, localFinding_loses ha, localFinding_loses hb]
  simp [or_and_right, exists_or]

end

/-! ### Delivery of a foreign CLAIM (R144, R155) -/

section
variable {src : BitVec 4} {st : StationNo} {number target priority duration : Byte} {g : GlobalPort} {pr : Priority} {s : State}

theorem exec_claimTaken_delivered (h : FrameReady s) (hsrc : stationOf src = some st) (hother : st ≠ s.station.number)
    (number target priority duration : Byte) : exec (.claimTaken src number target priority duration) s =
      .next (deliverClaim number target priority duration st (frameEnded s)) :=
  congrArg Host.Outcome.next (takePeer_delivered h hsrc hother (deliverClaim number target priority duration))

theorem priorityOf_none (h : 3 ≤ priority.toNat) : priorityOf priority = none := by
  have h0 : priority ≠ 0 := fun k => by rw [k] at h; simp at h
  have h1 : priority ≠ 1 := fun k => by rw [k] at h; simp at h
  have h2 : priority ≠ 2 := fun k => by rw [k] at h; simp at h
  simp only [priorityOf, if_neg h0, if_neg h1, if_neg h2]

/-- R155's three checks discard a CLAIM. -/
theorem checkClaim_none (h : 96 ≤ target.toNat ∨ 3 ≤ priority.toNat ∨ duration = 0) :
    checkClaim st number target priority duration = none := by
  rw [checkClaim]
  rcases h with h | h | h
  · rw [show globalPortOf target = none from dif_neg (Nat.not_lt.2 h)]
  · rw [priorityOf_none h]
    cases globalPortOf target <;> rfl
  · cases globalPortOf target <;> cases priorityOf priority <;> simp [h]

theorem checkClaim_some (hg : globalPortOf target = some g) (hp : priorityOf priority = some pr) (hd : duration ≠ 0) :
    checkClaim st number target priority duration = some ⟨st, number, g, pr, duration.toNat⟩ := by
  simp only [checkClaim, hg, hp, if_neg hd]

/-- A CLAIM that passes R155's checks is judged and taken. -/
theorem exec_claimTaken_judged (h : FrameReady s) (hsrc : stationOf src = some st) (hother : st ≠ s.station.number)
    (hg : globalPortOf target = some g) (hp : priorityOf priority = some pr) (hd : duration ≠ 0) :
    exec (.claimTaken src number target priority duration) s =
      .next (react (takeClaim ⟨st, number, g, pr, duration.toNat⟩ (frameEnded s))) := by
  rw [exec_claimTaken_delivered h hsrc hother]
  simp only [deliverClaim, checkClaim_some hg hp hd]

end

/-! ### Room in the view (R159) -/

/-- The earliest expiry is no later than any other. -/
theorem earliestExpiry_le {view : List ViewEntry} {e : Nat} (h : earliestExpiry view = some e) : ∀ x ∈ view, e ≤ x.expiry := by
  induction view generalizing e with
  | nil => simp
  | cons y ys ih =>
    rw [earliestExpiry] at h
    cases hys : earliestExpiry ys with
    | none =>
      have : ys = [] := by
        by_contra hne
        exact earliestExpiry_ne_none hne hys
      simp only [hys, Option.some.injEq] at h
      simp [this, h]
    | some k =>
      simp only [hys, Option.some.injEq] at h
      intro x hx
      rcases List.mem_cons.1 hx with rfl | hx
      · omega
      · have := ih hys x hx
        omega

/-- The first entry of an expiry leaves, and every one before it expires at another moment. -/
theorem removeFirstAt_split {view : List ViewEntry} {e : Nat} (h : ∃ x ∈ view, x.expiry = e) :
    ∃ before v after, view = before ++ v :: after ∧ removeFirstAt e view = before ++ after ∧ v.expiry = e ∧
      ∀ x ∈ before, x.expiry ≠ e := by
  induction view with
  | nil => simp at h
  | cons y ys ih =>
    rw [removeFirstAt]
    by_cases hy : y.expiry = e
    · exact ⟨[], y, ys, rfl, if_pos hy, hy, by simp⟩
    · obtain ⟨x, hx, hxe⟩ := h
      have hys : ∃ x ∈ ys, x.expiry = e := ⟨x, (List.mem_cons.1 hx).resolve_left (fun k => hy (k ▸ hxe)), hxe⟩
      obtain ⟨before, v, after, h1, h2, h3, h4⟩ := ih hys
      exact ⟨y :: before, v, after, by rw [h1]; rfl, by rw [if_neg hy, h2]; rfl, h3, List.forall_mem_cons.2 ⟨hy, h4⟩⟩

/-- A full view loses the first of the entries with the earliest expiry. -/
theorem makeRoom_full {view : List ViewEntry} (h : 16 ≤ view.length) :
    ∃ before v after, view = before ++ v :: after ∧ makeRoom view = before ++ after ∧
      (∀ x ∈ view, v.expiry ≤ x.expiry) ∧ ∀ x ∈ before, v.expiry < x.expiry := by
  obtain ⟨e, he⟩ := Option.ne_none_iff_exists'.1 (earliestExpiry_ne_none (v := view) (by rintro rfl; simp at h))
  obtain ⟨before, v, after, h1, h2, h3, h4⟩ := removeFirstAt_split (earliestExpiry_mem he)
  have hle := earliestExpiry_le he
  refine ⟨before, v, after, h1, ?_, fun x hx => h3 ▸ hle x hx, fun x hx => ?_⟩
  · rw [makeRoom, if_neg (show ¬view.length < viewCapacity from Nat.not_lt.2 h)]
    simp only [he]
    exact h2
  · have hm : x ∈ view := by rw [h1]; simp [hx]
    have := hle x hm
    have := h4 x hx
    omega

/-! ### Zones (R154) -/

theorem conflicts_singleRow {g h : GlobalPort} :
    conflicts .singleRow g h = true ↔ g = h ∨ g.val + 1 = h.val ∨ h.val + 1 = g.val := by
  have hg := g.isLt
  have hh := h.isLt
  simp only [conflicts, inZone, neighbours, Fin.ext_iff, Bool.or_eq_true, decide_eq_true_eq, List.any_eq_true, List.mem_filter,
    List.mem_append, beq_iff_eq]
  constructor
  · rintro (h1 | ⟨x, ⟨h1, h2⟩, rfl⟩)
    · exact .inl h1
    · split at h1 <;> simp at h1 <;> omega
  · rintro (h1 | h1 | h1)
    · exact .inl h1
    · exact .inr ⟨h.val, ⟨by simp [h1], hh⟩, rfl⟩
    · exact .inr ⟨h.val, ⟨.inl (by rw [if_neg (by omega)]; simp; omega), hh⟩, rfl⟩

theorem conflicts_stacked {g h : GlobalPort} :
    conflicts .stacked g h = true ↔ g.val / 2 = h.val / 2 ∨ g.val + 2 = h.val ∨ h.val + 2 = g.val := by
  have hg := g.isLt
  have hh := h.isLt
  simp only [conflicts, inZone, neighbours, Fin.ext_iff, Bool.or_eq_true, decide_eq_true_eq, List.any_eq_true, List.mem_filter,
    List.mem_append, beq_iff_eq]
  constructor
  · rintro (h1 | ⟨x, ⟨(h1 | h1) | h1, h2⟩, rfl⟩)
    · omega
    · split at h1 <;> simp at h1 <;> omega
    · split at h1 <;> simp at h1; omega
    · simp at h1; omega
  · intro h1
    by_cases heq : g.val = h.val
    · exact .inl heq
    · refine .inr ⟨h.val, ⟨?_, hh⟩, rfl⟩
      rcases h1 with h1 | h1 | h1
      · refine .inl (.inl ?_)
        split <;> simp <;> omega
      · exact .inr (by simp [h1])
      · refine .inl (.inr ?_)
        rw [if_neg (by omega)]; simp; omega

theorem conflicts_comm (geo : Geometry) (g h : GlobalPort) : conflicts geo g h = conflicts geo h g := by
  rw [Bool.eq_iff_iff]
  cases geo with
  | singleRow => rw [conflicts_singleRow, conflicts_singleRow, eq_comm]; tauto
  | stacked => rw [conflicts_stacked, conflicts_stacked, eq_comm]; tauto

/-! ### The obligations -/

theorem judge_rest {a b : Priority} {i j : StationNo} (h1 : ¬(a = .urgent ∧ b = .background)) (h2 : ¬(a = .background ∧ b = .urgent)) :
    judge a i b j = if priorityRank a < priorityRank b ∨ (a = b ∧ i < j) then .knownLoses else .newLoses := by
  rw [judge, if_neg h2, if_neg h1]
  cases a <;> cases b <;> simp [priorityRank]

theorem map_hasKey (st : StationNo) (number : Byte) (view : List ViewEntry) :
    view.map (fun v => if hasKey st number v then { v with active := true } else v) =
      view.map (fun v => if v.station = st ∧ v.number = number then { v with active := true } else v) := by
  simp only [hasKey, decide_eq_true_eq]

/-- Settles O48: the checks and the judgement of a foreign CLAIM, room in the view, an entry's own times, and conflict. -/
theorem foreignClaimsAreJudgedIntoTheView : Obligations.ForeignClaimsAreJudgedIntoTheView := by
  refine ⟨fun src st number target priority duration s hr hsrc hst => ⟨fun h => ?_, fun g pr hg hp hd => ⟨fun h hn => ?_, fun h hn => ?_⟩,
      fun view h => if_pos h, fun view => makeRoom_full⟩,
    fun a b i j => ⟨rfl, rfl, judge_rest⟩, fun st number s => ⟨fun h => ?_, fun h => ?_⟩,
    fun g h => ⟨fun geo => conflicts_comm geo g h, conflicts_singleRow, conflicts_stacked⟩⟩
  · rw [exec_claimTaken_delivered hr hsrc hst]
    simp only [deliverClaim, checkClaim_none h]
  · rw [exec_claimTaken_judged hr hsrc hst hg hp hd, takeClaim_free_lost (s := frameEnded s) hn]
    · rfl
    · obtain ⟨v, hv, hk, hc, hl⟩ := h
      exact ⟨v, mem_withoutKey.2 ⟨hv, hk⟩, hc, hl⟩
  · rw [exec_claimTaken_judged hr hsrc hst hg hp hd, takeClaim_free_stands (s := frameEnded s) hn]
    · simp only [Bool.and_comm (decide _), ← List.filter_filter]
      rfl
    · rintro ⟨v, hv, hc, hl⟩
      obtain ⟨hv, hk⟩ := mem_withoutKey.1 hv
      exact h v hv hk hc hl
  · refine congrArg Host.Outcome.next ((if_pos ?_).trans ?_)
    · simpa [hasKey, and_assoc] using h
    · rw [map_hasKey]
  · refine congrArg Host.Outcome.next ((if_pos ?_).trans ?_)
    · simpa [hasKey] using h
    · simp only [hasKey, decide_not]

section
variable {ch : ChannelId} {l : LocalClaim} {f : Finding} {pr : Priority} {apart : Bool} {s : State}

theorem withdraws_apart : withdraws ch l true pr s = s := if_neg fun h => Bool.noConfusion h.1

theorem withdraws_sent (h : l.state ≠ .queued) : withdraws ch l apart pr s = s := if_neg fun k => h k.2.1

theorem strikes_apart : strikes ch l true f s = s := if_pos (.inl rfl)

theorem strikes_queued (h : l.state = .queued) : strikes ch l apart f s = s := if_pos (.inr h)

end

/-- Settles O49: what a foreign claim does to one own claim, and to one of each channel. -/
theorem standingClaimsStrikeLocalClaims : Obligations.StandingClaimsStrikeLocalClaims := by
  refine ⟨fun src st number target priority duration g pr ch l s hr hsrc hst hg hp hd hn hl view gone stands hview hgone hstands => ?_,
    fun src st number target priority duration g pr a b s hr hsrc hst hg hp hd ha hb view apart found loses hview hapart hfound hloses => ?_⟩
  · obtain ⟨c, hc⟩ : ∃ c : ForeignClaim, c = ⟨st, number, g, pr, duration.toNat⟩ := ⟨_, rfl⟩
    have hx := exec_claimTaken_judged (number := number) hr hsrc hst hg hp hd
    rw [← hc] at hx
    have hg1 : withoutOwnEntry c (frameEnded s) = gone := by rw [hgone, hview, hc]; rfl
    have hg2 : entered c (withoutOwnEntry c (frameEnded s)) = stands := by rw [hstands, hview, hc]; rfl
    have hv : LosesToView c gone ↔
        ∃ v ∈ view, conflicts s.station.geometry g v.target = true ∧ judge pr st v.priority v.station = .newLoses := by
      rw [← hg1, hview, hc]; rfl
    have hloses : claimLoses c gone = true ↔ LosesToView c gone ∨ l.state ≠ .queued ∧
        conflicts s.station.geometry g l.target = true ∧ judge pr st l.priority s.station.number = .newLoses := by
      rw [← hg1, claimLoses_one (s := withoutOwnEntry c (frameEnded s)) hn hl, hc]; rfl
    have hlost : claimLoses c gone = true → takeClaim c (frameEnded s) =
        withdraws ch l (!conflicts s.station.geometry g l.target) pr gone := fun h => by
      rw [takeClaim_one_lost (s := frameEnded s) hn hl (hg1 ▸ h), hg1, hc]; rfl
    have hstand : ¬claimLoses c gone = true → takeClaim c (frameEnded s) =
        withdraws ch l (!conflicts s.station.geometry g l.target) pr (strikes ch l (!conflicts s.station.geometry g l.target)
          (judge pr st l.priority s.station.number) stands) := fun h => by
      rw [takeClaim_one_stands (s := frameEnded s) hn hl (hg1 ▸ h), hg2, hc]; rfl
    rw [← hv]
    have hview' : (∀ v ∈ view, conflicts s.station.geometry g v.target = true → judge pr st v.priority v.station ≠ .newLoses) →
        ¬LosesToView c gone := fun h k => by
      obtain ⟨v, h1, h2, h3⟩ := hv.1 k
      exact h v h1 h2 h3
    refine ⟨fun hfar => ⟨fun h => ?_, fun h => ?_⟩, fun hnear => ⟨fun hq h => ?_, fun hq u hu => ?_, fun hq h => ?_⟩⟩
    · rw [hx, hlost (hloses.2 (.inl h)), hfar, Bool.not_false, withdraws_apart]
    · have hno : ¬claimLoses c gone = true := by
        rw [hloses, hfar]
        rintro (k | ⟨-, k, -⟩)
        · exact hview' h k
        · cases k
      rw [hx, hstand hno, hfar, Bool.not_false, withdraws_apart, strikes_apart]
    · rw [hx, hlost (hloses.2 (h.imp id fun h => ⟨hq, hnear, h⟩)), withdraws_sent hq]
    · have hu' : takeClaim c (frameEnded s) = withdraws ch l (!conflicts s.station.geometry g l.target) pr u := by
        rcases hu with ⟨rfl, h⟩ | ⟨rfl, h⟩
        · exact hlost (hloses.2 (.inl h))
        · rw [hstand, strikes_queued hq]
          rw [hloses]
          rintro (k | k)
          · exact hview' h k
          · exact k.1 hq
      rw [hx, hu', hnear]
      refine ⟨fun hpr => ?_, fun h1 h2 => ?_⟩
      · exact congrArg (fun t => Host.Outcome.next (react t)) (if_pos ⟨rfl, hq, hpr⟩)
      · exact congrArg (fun t => Host.Outcome.next (react t)) (if_neg fun k => k.2.2 ⟨h1, h2⟩)
    · have hst' : judge pr st l.priority s.station.number ≠ .newLoses → takeClaim c (frameEnded s) =
          strikes ch l false (judge pr st l.priority s.station.number) stands := fun hf => by
        rw [hstand, withdraws_sent hq, hnear, Bool.not_true]
        rw [hloses]
        rintro (k | k)
        · exact hview' h k
        · exact hf k.2.2
      refine ⟨fun hf => ?_, fun hf => ?_, fun hf => ?_⟩
      · rw [hx, hst' (by rw [hf]; decide), hf]
        cases hs : l.state <;> simp [strikes, hs] at hq ⊢
      · rw [hx, hst' (by rw [hf]; decide), hf]
        cases hs : l.state <;> simp [strikes, hs] at hq ⊢
      · rw [hx, hst' (by rw [hf]; decide), hf]
        cases hs : l.state <;> simp [strikes, hs] at hq ⊢
  · obtain ⟨c, hc⟩ : ∃ c : ForeignClaim, c = ⟨st, number, g, pr, duration.toNat⟩ := ⟨_, rfl⟩
    have hx := exec_claimTaken_judged (number := number) hr hsrc hst hg hp hd
    rw [← hc] at hx
    have hl : loses ↔ claimLoses c (withoutOwnEntry c (frameEnded s)) = true := by
      rw [hloses, claimLoses_two (s := withoutOwnEntry c (frameEnded s)) ha hb, hview, hc]
      simp only [hapart, hfound, Bool.not_eq_false']
      rfl
    rw [hx, hl, hapart, hapart, hfound, hfound]
    refine ⟨fun h => ?_, fun h => ?_⟩
    · rw [takeClaim_two_lost (s := frameEnded s) ha hb h, hview, hc]; rfl
    · rw [takeClaim_two_stands (s := frameEnded s) ha hb h, hview, hc]; rfl

end Sys2Proof.Machine
end

section
/-! PROOFS about the layout of frames (Table 8-2): what their bits read back as, and what the line makes of them bit by bit. -/

namespace Sys2Proof.Machine

open Sys2Proof

/-! ### The numbers that bits spell -/

theorem bitsOf_length (b : Byte) : (bitsOf b).length = 8 := rfl

theorem toNat_getLsbD (b : Byte) (i : Nat) : (b.getLsbD i).toNat = b.toNat / 2 ^ i % 2 := by
  rw [← BitVec.testBit_toNat, Nat.toNat_testBit]

/-- One more bit of a number, from the most significant end. -/
theorem two_mul_div_add_bit (v k : Nat) : 2 * (v / 2 ^ (k + 1)) + v / 2 ^ k % 2 = v / 2 ^ k := by
  rw [Nat.pow_succ, ← Nat.div_div_eq_div_mul, Nat.div_add_mod]

/-- The bits of a byte spell it, and the first four and the last four its halves. -/
theorem valueOf_bitsOf (b : Byte) : valueOf (bitsOf b) = b.toNat ∧ valueOf ((bitsOf b).take 4) = b.toNat / 16 ∧
    valueOf ((bitsOf b).drop 4) = b.toNat % 16 := by
  have hb : b.toNat / 2 ^ (7 + 1) = 0 := Nat.div_eq_of_lt b.isLt
  simp only [valueOf, bitsOf, List.foldl_cons, List.foldl_nil, List.take_succ_cons, List.take_zero, List.drop_succ_cons, List.drop_zero,
    toNat_getLsbD]
  have step := two_mul_div_add_bit b.toNat
  have top := step 7
  rw [hb] at top
  refine ⟨?_, ?_, ?_⟩
  · rw [top, step 6, step 5, step 4, step 3, step 2, step 1, step 0, pow_zero, Nat.div_one]
  · rw [top, step 6, step 5, step 4]; rfl
  · omega

theorem byteOf_toNat_of_lt {n : Nat} (h : n < 256) : (byteOf n).toNat = n := by
  simp [byteOf, Nat.mod_eq_of_lt h]

theorem byteOf_toNat_self (b : Byte) : byteOf b.toNat = b := by
  simp [byteOf]

/-! ### The check (R138) -/

/-- A byte taken into a check equal to it leaves 0: each bit meets its own, and all shift out. -/
theorem crc_self (c : Byte) : (bitsOf c).foldl crcStep c = 0 := by
  have step : ∀ d : Byte, crcStep d (d.getLsbD 7) = d <<< 1 := fun d => by simp [crcStep]
  have shifted : ∀ i, i < 8 → ∀ k, k ≤ i → (c <<< k).getLsbD i = c.getLsbD (i - k) := fun i hi k hk => by
    rw [BitVec.getLsbD_shiftLeft]; simp only [hi, Nat.not_lt.2 hk, decide_true, decide_false, Bool.not_false, Bool.true_and]
  have next : ∀ k, k < 8 → crcStep (c <<< k) (c.getLsbD (7 - k)) = c <<< (k + 1) := fun k hk => by
    rw [← shifted 7 (by decide) k (by omega), step, ← BitVec.shiftLeft_add]
  have h0 := next 0 (by decide)
  rw [BitVec.shiftLeft_zero] at h0
  simp only [bitsOf, List.foldl_cons, List.foldl_nil, h0, next 1 (by decide), next 2 (by decide), next 3 (by decide), next 4 (by decide),
    next 5 (by decide), next 6 (by decide), next 7 (by decide)]
  simp

theorem crc8_append (bytes : List Byte) (b : Byte) : crc8 (bytes ++ [b]) = (bitsOf b).foldl crcStep (crc8 bytes) := by
  simp [crc8]

/-! ### The layout of a frame's bits -/

/-- The bits of covered bytes, each with its spacer. -/
def spacedBits (bytes : List Byte) (spacers : List Bool) : List Bool :=
  (List.zipWith (fun b x => bitsOf b ++ [x]) bytes spacers).flatten

theorem spacedBits_cons (b : Byte) (x : Bool) (bytes : List Byte) (spacers : List Bool) :
    spacedBits (b :: bytes) (x :: spacers) = bitsOf b ++ (x :: spacedBits bytes spacers) := by
  simp [spacedBits]

theorem spacedBits_length : ∀ {bytes : List Byte} {spacers : List Bool}, bytes.length = spacers.length →
    (spacedBits bytes spacers).length = 9 * bytes.length
  | [], [], _ => rfl
  | b :: bytes, x :: spacers, h => by
    rw [spacedBits_cons, List.length_append, List.length_cons, spacedBits_length (by simpa using h), bitsOf_length]
    simp; omega

/-- Byte i and its spacer stand at 9·i. -/
theorem spacedBits_drop : ∀ {bytes : List Byte} {spacers : List Bool} (_ : bytes.length = spacers.length) {i : Nat} {b : Byte} {x : Bool}
    (_ : bytes[i]? = some b) (_ : spacers[i]? = some x), (spacedBits bytes spacers).drop (9 * i) =
      bitsOf b ++ (x :: spacedBits (bytes.drop (i + 1)) (spacers.drop (i + 1)))
  | [], _, _, _, _, _, hb, _ => by simp at hb
  | _ :: _, [], h, _, _, _, _, _ => by simp at h
  | c :: bytes, y :: spacers, h, 0, b, x, hb, hx => by
    simp only [List.getElem?_cons_zero, Option.some.injEq] at hb hx
    subst hb hx
    rw [spacedBits_cons]; rfl
  | c :: bytes, y :: spacers, h, i + 1, b, x, hb, hx => by
    have ih := spacedBits_drop (bytes := bytes) (spacers := spacers) (by simpa using h) (i := i) (by simpa using hb) (by simpa using hx)
    rw [spacedBits_cons, show 9 * (i + 1) = 9 + 9 * i by omega, ← List.drop_drop]
    exact ih

/-- The bits of a frame up to `tail`: the start bit and the covered bytes with their spacers. -/
def layout (bytes : List Byte) (spacers tail : List Bool) : List Bool := false :: (spacedBits bytes spacers ++ tail)

theorem bitsToCheck_layout (bytes : List Byte) (check : Byte) (spacers : List Bool) :
    bitsToCheck bytes check spacers = layout bytes spacers (bitsOf check) := rfl

theorem spacedBits_recessive (bytes : List Byte) :
    spacedBits bytes (List.replicate bytes.length true) = bytes.flatMap (fun b => bitsOf b ++ [true]) := by
  induction bytes with
  | nil => rfl
  | cons b bytes ih =>
    rw [List.length_cons, List.replicate_succ, spacedBits_cons, ih, List.flatMap_cons, List.append_assoc]; rfl

theorem frameBits_layout (kind source dest : Nat) (payload : List Byte) :
    frameBits kind source dest payload = layout (coveredBytes kind source dest payload)
      (List.replicate (payload.length + 2) true) (bitsOf (crc8 (coveredBytes kind source dest payload)) ++ [true, true]) := by
  have h := spacedBits_recessive (coveredBytes kind source dest payload)
  rw [layout, show payload.length + 2 = (coveredBytes kind source dest payload).length from rfl, h]
  simp [frameBits]

section
variable {bytes : List Byte} {spacers tail : List Bool} {i : Nat} {b : Byte} {x : Bool}

theorem layout_length (h : bytes.length = spacers.length) : (layout bytes spacers tail).length = 1 + 9 * bytes.length + tail.length := by
  simp [layout, spacedBits_length h]; omega

theorem layout_drop (h : bytes.length = spacers.length) (hb : bytes[i]? = some b) (hx : spacers[i]? = some x) :
    ∃ rest, (layout bytes spacers tail).drop (1 + 9 * i) = bitsOf b ++ (x :: rest) := by
  have hi : i < bytes.length := by
    by_contra hn
    rw [List.getElem?_eq_none (by omega)] at hb; cases hb
  refine ⟨spacedBits (bytes.drop (i + 1)) (spacers.drop (i + 1)) ++ tail, ?_⟩
  rw [layout, Nat.add_comm, List.drop_succ_cons, List.drop_append_of_le_length (by rw [spacedBits_length h]; omega),
    spacedBits_drop h hb hx, List.append_assoc]
  rfl

/-- Covered byte i reads back, whole and by halves. -/
theorem fieldAt_byte (h : bytes.length = spacers.length) (hb : bytes[i]? = some b) :
    fieldAt (layout bytes spacers tail) (2 + 9 * i) 8 = b.toNat ∧ fieldAt (layout bytes spacers tail) (2 + 9 * i) 4 = b.toNat / 16 ∧
      fieldAt (layout bytes spacers tail) (6 + 9 * i) 4 = b.toNat % 16 := by
  have hi : i < spacers.length := by
    by_contra hn
    rw [List.getElem?_eq_none (by omega)] at hb; cases hb
  obtain ⟨rest, hd⟩ := layout_drop (tail := tail) h hb (List.getElem?_eq_getElem hi)
  obtain ⟨h1, h2, h3⟩ := valueOf_bitsOf b
  refine ⟨?_, ?_, ?_⟩
  · rw [fieldAt, show 2 + 9 * i - 1 = 1 + 9 * i by omega, hd, ← h1]; rfl
  · rw [fieldAt, show 2 + 9 * i - 1 = 1 + 9 * i by omega, hd, ← h2]; rfl
  · rw [fieldAt, show 6 + 9 * i - 1 = 1 + 9 * i + 4 by omega, ← List.drop_drop, hd, ← h3]; rfl

/-- The length of the payload is the low half of byte 1. -/
theorem payloadLength_layout (h : bytes.length = spacers.length) (hb : bytes[1]? = some b) :
    payloadLength (layout bytes spacers tail) = b.toNat % 16 := (fieldAt_byte (i := 1) h hb).2.2

/-- The check byte follows the covered bytes. -/
theorem checkRead_layout {check : Byte} {rest : List Bool} (h : bytes.length = spacers.length)
    (hn : bytes.length = payloadLength (layout bytes spacers (bitsOf check ++ rest)) + 2) :
    checkRead (layout bytes spacers (bitsOf check ++ rest)) = check := by
  have hd : (layout bytes spacers (bitsOf check ++ rest)).drop (1 + 9 * bytes.length) = bitsOf check ++ rest := by
    rw [layout, Nat.add_comm, List.drop_succ_cons, ← spacedBits_length h, List.drop_left]
  rw [checkRead, fieldAt, bodyEnd]
  rw [show 19 + 9 * payloadLength (layout bytes spacers (bitsOf check ++ rest)) + 1 - 1 = 1 + 9 * bytes.length by omega, hd,
    show (bitsOf check ++ rest).take 8 = bitsOf check from rfl, (valueOf_bitsOf check).1, byteOf_toNat_self]

end

theorem byte_halves {hi lo : Nat} (hh : hi < 16) (hl : lo < 16) :
    (byteOf (16 * hi + lo)).toNat / 16 = hi ∧ (byteOf (16 * hi + lo)).toNat % 16 = lo := by
  rw [byteOf_toNat_of_lt (by omega)]; omega

theorem frameBits_length (kind source dest : Nat) (payload : List Byte) :
    (frameBits kind source dest payload).length = 29 + 9 * payload.length := by
  rw [frameBits_layout, layout_length (by simp [coveredBytes])]
  simp [coveredBytes, bitsOf_length]; omega

theorem payloadLength_frameBits {kind source dest : Nat} {payload : List Byte} (hd : dest < 16) (hp : payload.length ≤ 15) :
    payloadLength (frameBits kind source dest payload) = payload.length := by
  rw [frameBits_layout, payloadLength_layout (by simp [coveredBytes]) (show _ = some (byte1 dest payload.length) from rfl)]
  exact (byte_halves hd (by omega)).2

/-- The bits that a station sends read back as the frame's fields (R137, R142). -/
theorem frameRead_frameBits (kind source dest : BitVec 4) {bytes : List Byte} (h : bytes.length ≤ 15) :
    frameRead (frameBits kind.toNat source.toNat dest.toNat bytes) = ⟨kind, source, dest, bytes⟩ := by
  have hlen : (coveredBytes kind.toNat source.toNat dest.toNat bytes).length =
      (List.replicate (bytes.length + 2) true).length := by simp [coveredBytes]
  have hn := payloadLength_frameBits (kind := kind.toNat) (source := source.toNat) dest.isLt h
  rw [frameRead, hn]
  rw [frameBits_layout]
  have h0 := fieldAt_byte (i := 0) (tail := bitsOf (crc8 (coveredBytes kind.toNat source.toNat dest.toNat bytes)) ++ [true, true])
    hlen (b := byte0 kind.toNat source.toNat) rfl
  have h1 := fieldAt_byte (i := 1) (tail := bitsOf (crc8 (coveredBytes kind.toNat source.toNat dest.toNat bytes)) ++ [true, true])
    hlen (b := byte1 dest.toNat bytes.length) rfl
  obtain ⟨hk, hs⟩ := byte_halves kind.isLt source.isLt
  obtain ⟨hd, -⟩ := byte_halves dest.isLt (show bytes.length < 16 by omega)
  have hkind := h0.2.1.trans hk
  have hsource := h0.2.2.trans hs
  have hdest := h1.2.1.trans hd
  congr 1
  · rw [hkind]; simp
  · rw [hsource]; simp
  · rw [hdest]; simp
  · refine List.ext_getElem (by simp) fun j h1 h2 => ?_
    have hj := (fieldAt_byte (i := j + 2) (b := bytes[j])
      (tail := bitsOf (crc8 (coveredBytes kind.toNat source.toNat dest.toNat bytes)) ++ [true, true]) hlen
      (by simp [coveredBytes])).1
    rw [List.getElem_map, List.getElem_range, show 20 + 9 * j = 2 + 9 * (j + 2) by omega, hj, byteOf_toNat_self]

/-! ### The bits as the line reads them (R136, R142) -/

theorem payloadLength_append {bits rest : List Bool} (h : 18 ≤ bits.length) :
    payloadLength (bits ++ rest) = payloadLength bits := by
  rw [payloadLength, payloadLength, fieldAt, fieldAt, List.drop_append_of_le_length (by omega),
    List.take_append_of_le_length (by rw [List.length_drop]; omega)]

/-- A line amid a frame: not STUCK, receiving. -/
def MidFrame (l : Line) : Prop := l.condition = .busy ∧ l.assembler = .receiving ∧ l.objecting = false ∧ l.idleCount = 0 ∧ l.heard ≠ []

/-- The dominant run after some bits. -/
def runAfter (bits : List Bool) (run : Nat) : Nat := bits.foldl (fun r b => if b then 0 else min 65 (r + 1)) run

/-- The line amid a frame with further bits heard. -/
def heardOn (l : Line) (bits : List Bool) (check : Byte) (fault : Bool) : Line :=
  { l with dominantRun := runAfter bits l.dominantRun, heard := l.heard ++ bits, check := check, spacerFault := fault }

theorem MidFrame.heardOn {l : Line} (h : MidFrame l) (bits : List Bool) (check : Byte) (fault : Bool) :
    MidFrame (Machine.heardOn l bits check fault) := by
  obtain ⟨h1, h2, h3, h4, h5⟩ := h
  exact ⟨h1, h2, h3, h4, by simp [Machine.heardOn, h5]⟩

section
variable {l : Line} {b : Bool} {rest : List Bool}

/-- Before its end bit a frame goes on being assembled. -/
theorem assembling_mid (h : MidFrame l) (hlt : l.heard.length + 1 < 30 + 9 * payloadLength (l.heard ++ rest)) : assembling l = true := by
  obtain ⟨h1, h2, -, -, -⟩ := h
  have hw : wholeHeard l = false := by
    rw [wholeHeard, Bool.and_eq_false_iff, decide_eq_false_iff_not, decide_eq_false_iff_not]
    by_cases hl : 18 ≤ l.heard.length
    · rw [payloadLength_append hl] at hlt
      exact .inr (by rw [endPosition, bodyEnd]; omega)
    · exact .inl hl
  simp [assembling, h1, h2, hw]

/-- A bit before the objection slot joins the frame, with its part in the check and the spacer fault by its position. -/
theorem readBit_mid (h : MidFrame l) (hlt : l.heard.length + 1 < 28 + 9 * payloadLength (l.heard ++ rest)) :
    readBit b l = heardOn l [b]
      (if 2 ≤ l.heard.length + 1 ∧ l.heard.length + 1 ≤ 19 + 9 * payloadLength (l.heard ++ rest) ∧ (l.heard.length + 1) % 9 ≠ 1 then
        crcStep l.check b else l.check)
      (l.spacerFault || (decide (10 ≤ l.heard.length + 1 ∧ l.heard.length + 1 ≤ 19 + 9 * payloadLength (l.heard ++ rest) ∧
        (l.heard.length + 1) % 9 = 1) && !b)) := by
  have hmid := h
  obtain ⟨h1, h2, h3, h4, -⟩ := h
  have hbody : (l.heard.length + 1 ≤ bodyEnd l.heard ↔ l.heard.length + 1 ≤ 19 + 9 * payloadLength (l.heard ++ rest)) ∧
      l.heard.length + 1 < slotPosition l.heard := by
    rw [slotPosition, bodyEnd]
    by_cases hl : 18 ≤ l.heard.length
    · rw [payloadLength_append hl] at hlt ⊢; omega
    · omega
  have hcov : isCovered l.heard (l.heard.length + 1) = true ↔ 2 ≤ l.heard.length + 1 ∧
      l.heard.length + 1 ≤ 19 + 9 * payloadLength (l.heard ++ rest) ∧ (l.heard.length + 1) % 9 ≠ 1 := by
    simp only [isCovered, Bool.and_eq_true, decide_eq_true_eq, bne_iff_ne, and_assoc, hbody.1]
  have hsp : isSpacer l.heard (l.heard.length + 1) = decide (10 ≤ l.heard.length + 1 ∧
      l.heard.length + 1 ≤ 19 + 9 * payloadLength (l.heard ++ rest) ∧ (l.heard.length + 1) % 9 = 1) := by
    rw [Bool.eq_iff_iff]
    simp only [isSpacer, Bool.and_eq_true, decide_eq_true_eq, beq_iff_eq, and_assoc, hbody.1]
  have hcount : (countWithin b l) = { l with dominantRun := if b then 0 else min 65 (l.dominantRun + 1) } := by
    rw [countWithin, h4.symm]
  rw [readBit, if_pos (assembling_mid (rest := rest) hmid (by omega)), readWithin, if_pos hbody.2, hcount, appendBit]
  simp only [hcov, hsp]
  rfl

end

/-! ### Bytes, and the whole frame to its check (R137, R138, R142) -/

theorem heardOn_heardOn (l : Line) (xs ys : List Bool) (c d : Byte) (f g : Bool) :
    heardOn (heardOn l xs c f) ys d g = heardOn l (xs ++ ys) d g := by
  simp [heardOn, runAfter]

@[simp] theorem heardOn_heard (l : Line) (xs : List Bool) (c : Byte) (f : Bool) : (heardOn l xs c f).heard = l.heard ++ xs := rfl

theorem heardOn_nil (l : Line) : heardOn l [] l.check l.spacerFault = l := by simp [heardOn, runAfter]

section
variable {n : Nat} {l : Line} {rest : List Bool}

/-- Bits that are all covered join the check of a frame with n payload bytes. -/
theorem read_covered (bits : List Bool) (h : MidFrame l) (hn : payloadLength (l.heard ++ (bits ++ rest)) = n)
    (hc : ∀ p, l.heard.length < p → p ≤ l.heard.length + bits.length → 2 ≤ p ∧ p ≤ 19 + 9 * n ∧ p % 9 ≠ 1) :
    bits.foldl (fun k b => readBit b k) l = heardOn l bits (bits.foldl crcStep l.check) l.spacerFault := by
  induction bits generalizing l with
  | nil => exact (heardOn_nil l).symm
  | cons b bits ih =>
    obtain ⟨h1, h2, h3⟩ := hc (l.heard.length + 1) (by omega) (by simp)
    have hnext : readBit b l = heardOn l [b] (crcStep l.check b) l.spacerFault := by
      rw [readBit_mid (rest := (b :: bits) ++ rest) h (by rw [hn]; omega), hn, if_pos ⟨h1, h2, h3⟩,
        decide_eq_false (fun k => h3 k.2.2), Bool.false_and, Bool.or_false]
    rw [List.foldl_cons, hnext, ih (h.heardOn _ _ _), heardOn_heardOn]
    · rfl
    · rw [heardOn_heard, List.append_assoc]; exact hn
    · intro p hp hp'
      rw [heardOn_heard, List.length_append, List.length_singleton] at hp hp'
      exact hc p (by omega) (by rw [List.length_cons]; omega)

/-- Bits beyond the covered part, up to the objection slot, only join the frame. -/
theorem read_check (bits : List Bool) (h : MidFrame l) (hn : payloadLength (l.heard ++ (bits ++ rest)) = n)
    (h1 : 19 + 9 * n ≤ l.heard.length) (h2 : l.heard.length + bits.length < 28 + 9 * n) :
    bits.foldl (fun k b => readBit b k) l = heardOn l bits l.check l.spacerFault := by
  induction bits generalizing l with
  | nil => exact (heardOn_nil l).symm
  | cons b bits ih =>
    rw [List.length_cons] at h2
    have hnext : readBit b l = heardOn l [b] l.check l.spacerFault := by
      rw [readBit_mid (rest := (b :: bits) ++ rest) h (by rw [hn]; omega), hn, if_neg (fun k => by omega),
        decide_eq_false (fun k => by omega), Bool.false_and, Bool.or_false]
    rw [List.foldl_cons, hnext, ih (h.heardOn _ _ _), heardOn_heardOn]
    · rfl
    · rw [heardOn_heard, List.append_assoc]; exact hn
    · rw [heardOn_heard, List.length_append, List.length_singleton]; omega
    · rw [heardOn_heard, List.length_append, List.length_singleton]; omega

/-- A spacer joins the frame, and marks it when it is dominant. -/
theorem read_spacer {x : Bool} (h : MidFrame l) (hn : payloadLength (l.heard ++ (x :: rest)) = n) (h1 : 9 ≤ l.heard.length)
    (h2 : l.heard.length + 1 ≤ 19 + 9 * n) (h3 : (l.heard.length + 1) % 9 = 1) :
    readBit x l = heardOn l [x] l.check (l.spacerFault || !x) := by
  rw [readBit_mid (rest := x :: rest) h (by rw [hn]; omega), hn, if_neg (fun k => k.2.2 h3), decide_eq_true ⟨by omega, h2, h3⟩,
    Bool.true_and]

/-- One covered byte with its spacer. -/
theorem read_byte {b : Byte} {x : Bool} {i : Nat} (h : MidFrame l) (hn : payloadLength (l.heard ++ (bitsOf b ++ (x :: rest))) = n)
    (hi : l.heard.length = 1 + 9 * i) (hin : i ≤ n + 1) :
    (bitsOf b ++ [x]).foldl (fun k b => readBit b k) l =
      heardOn l (bitsOf b ++ [x]) ((bitsOf b).foldl crcStep l.check) (l.spacerFault || !x) := by
  have hcov := read_covered (n := n) (rest := x :: rest) (bitsOf b) h hn (fun p hp hp' => by
    rw [bitsOf_length] at hp'; omega)
  have hspacer := read_spacer (n := n) (x := x) (rest := rest) (h.heardOn (bitsOf b) ((bitsOf b).foldl crcStep l.check) l.spacerFault)
    (by rw [heardOn_heard, List.append_assoc]; exact hn)
    (by rw [heardOn_heard, List.length_append, bitsOf_length]; omega)
    (by rw [heardOn_heard, List.length_append, bitsOf_length]; omega)
    (by rw [heardOn_heard, List.length_append, bitsOf_length]; omega)
  rw [List.foldl_append, hcov, List.foldl_cons, List.foldl_nil, hspacer, heardOn_heardOn]
  rfl

/-- Covered bytes with their spacers, byte by byte. -/
theorem read_bytes {bytes : List Byte} {spacers : List Bool} {i : Nat} (h : MidFrame l) (hlen : bytes.length = spacers.length)
    (hn : payloadLength (l.heard ++ (spacedBits bytes spacers ++ rest)) = n) (hi : l.heard.length = 1 + 9 * i)
    (hin : i + bytes.length ≤ n + 2) :
    (spacedBits bytes spacers).foldl (fun k b => readBit b k) l =
      heardOn l (spacedBits bytes spacers) ((bytes.flatMap bitsOf).foldl crcStep l.check) (l.spacerFault || spacers.any (!·)) := by
  induction bytes generalizing l spacers i with
  | nil =>
    cases spacers with
    | nil => simpa [spacedBits] using (heardOn_nil l).symm
    | cons x spacers => simp at hlen
  | cons b bytes ih =>
    cases spacers with
    | nil => simp at hlen
    | cons x spacers =>
      rw [List.length_cons] at hin
      have hsp : spacedBits (b :: bytes) (x :: spacers) = (bitsOf b ++ [x]) ++ spacedBits bytes spacers := by
        rw [spacedBits_cons, List.append_assoc]; rfl
      rw [hsp] at hn ⊢
      have hbyte := read_byte (n := n) (b := b) (x := x) (i := i) (rest := spacedBits bytes spacers ++ rest) h
        (by rw [← hn]; simp) hi (by omega)
      rw [List.foldl_append, hbyte, ih (i := i + 1) (h.heardOn _ _ _) (by simpa using hlen), heardOn_heardOn]
      · rw [List.flatMap_cons, List.foldl_append, List.any_cons, ← Bool.or_assoc]
        rfl
      · rw [heardOn_heard, ← hn]; simp
      · rw [heardOn_heard, List.length_append, List.length_append, bitsOf_length, List.length_singleton]; omega
      · omega

end

/-- The line at idle, with nothing heard. -/
def AtIdle (l : Line) : Prop :=
  l.condition = .idle ∧ l.idleCount = 11 ∧ l.assembler = .ready ∧ l.heard = [] ∧ l.check = 0 ∧ l.spacerFault = false

/-- The line that has heard the bits of a frame from idle, up to its check byte. -/
def heardLine (l : Line) (bits : List Bool) (check : Byte) (fault : Bool) : Line :=
  { l with
    condition := .busy, idleCount := 0, assembler := .receiving, objecting := false, heard := bits, check := check
    spacerFault := fault, dominantRun := runAfter bits l.dominantRun }

/-- The bits of a frame up to its check byte, heard from idle (R137, R142). -/
theorem hear_toCheck {l : Line} {bytes : List Byte} {spacers rest : List Bool} {check : Byte} (h : AtIdle l)
    (hlen : bytes.length = spacers.length)
    (hn : bytes.length = payloadLength (layout bytes spacers (bitsOf check ++ rest)) + 2) :
    (layout bytes spacers (bitsOf check)).foldl (fun k b => readBit b k) l =
      heardLine l (layout bytes spacers (bitsOf check)) (crc8 bytes) (spacers.any (!·)) := by
  obtain ⟨h1, h2, h3, h4, h5, h6⟩ := h
  have hstart : readBit false l = heardLine l [false] 0 false := by
    have hno : assembling l = false := by simp [assembling, h1, h3, h4]
    rw [readBit, if_neg (by rw [hno]; decide), readBetween, if_pos (by simp [forgetFrame, h1, h2, h3])]
    simp [heardLine, appendBit, countWithin, forgetFrame, isCovered, isSpacer, runAfter]
  have hmid : MidFrame (heardLine l [false] 0 false) := ⟨rfl, rfl, rfl, rfl, by simp [heardLine]⟩
  obtain ⟨n, hnn⟩ : ∃ n, payloadLength (layout bytes spacers (bitsOf check ++ rest)) = n := ⟨_, rfl⟩
  have hbytes := read_bytes (n := n) (rest := bitsOf check ++ rest) (bytes := bytes) (spacers := spacers) (i := 0) hmid hlen hnn rfl
    (by omega)
  have hcheck := read_check (n := n) (rest := rest) (bitsOf check) (hmid.heardOn (spacedBits bytes spacers)
      ((bytes.flatMap bitsOf).foldl crcStep 0) (false || spacers.any (!·)))
    (by rw [← hnn]; simp [heardLine, layout])
    (by rw [heardOn_heard, List.length_append, spacedBits_length hlen]; simp [heardLine]; omega)
    (by rw [heardOn_heard, List.length_append, spacedBits_length hlen, bitsOf_length]; simp [heardLine]; omega)
  rw [layout, List.foldl_cons, hstart, List.foldl_append, hbytes]
  refine hcheck.trans ?_
  rw [heardOn_heardOn]
  rfl

end Sys2Proof.Machine
end

section
/-! PROOFS of O55 and O56: the check byte, and frames and requests read bit by bit. -/

namespace Sys2Proof.Machine

open Sys2Proof

/-! ### The check failure at a receiver (R142) -/

/-- The line k has read the bits of a frame to its check byte, as l goes on. -/
structure HeardToCheck (l k : Line) (bits : List Bool) (bytes : List Byte) (spacers : List Bool) : Prop where
  assembler : k.assembler = .receiving
  objecting : k.objecting = false
  heard : k.heard = bits
  check : k.check = crc8 bytes
  fault : k.spacerFault = spacers.any (!·)
  list : k.list = l.list
  duplicate : k.duplicate = l.duplicate
  listenIn : k.listenIn = l.listenIn
  onLine : k.onLine = l.onLine

section
variable {bytes : List Byte} {spacers : List Bool} {check : Byte} {l k : Line} {s : State}

/-- The line that a RECEIVE_CHECK_FAILURE speaks of has heard just its bits: they were heard, or are heard from idle. -/
theorem checkedLine_heard (hlen : bytes.length = spacers.length)
    (hn : bytes.length = payloadLength (bitsToCheck bytes check spacers) + 2)
    (hheard : l.heard = bitsToCheck bytes check spacers → l.assembler = .receiving ∧ l.check = crc8 bytes ∧
      l.spacerFault = spacers.any (!·)) :
    HeardToCheck l (checkedLine (bitsToCheck bytes check spacers) l) (bitsToCheck bytes check spacers) bytes spacers := by
  rw [checkedLine]
  split
  next h =>
    obtain ⟨h1, h2, h3⟩ := hheard h.1
    exact ⟨h1, h.2, h.1, h2, h3, rfl, rfl, rfl, rfl⟩
  next h =>
    have hear := hear_toCheck (l := { forgetFrame l with condition := .idle, idleCount := 11, dominantRun := 0, assembler := .ready })
      (rest := []) (check := check) ⟨rfl, rfl, rfl, rfl, rfl, rfl⟩ hlen (by rw [List.append_nil]; exact hn)
    rw [hearBits, bitsToCheck_layout, hear]
    exact ⟨rfl, rfl, rfl, rfl, rfl, rfl, rfl, rfl, rfl⟩

/-- Such a line is marked for objection when a spacer was dominant or the check differs. -/
theorem objectionDue_heard (h : HeardToCheck l k (bitsToCheck bytes check spacers) bytes spacers)
    (hlen : bytes.length = spacers.length) (hn : bytes.length = payloadLength (bitsToCheck bytes check spacers) + 2)
    (ho : l.onLine = none) : objectionDue k = true ↔ false ∈ spacers ∨ crc8 bytes ≠ check := by
  have hlength : (bitsToCheck bytes check spacers).length = 27 + 9 * payloadLength (bitsToCheck bytes check spacers) := by
    have hl := layout_length (tail := bitsOf check) hlen
    rw [bitsOf_length] at hl
    rw [bitsToCheck_layout] at hn ⊢
    rw [hl]
    omega
  have hread : checkRead (bitsToCheck bytes check spacers) = check := by
    have hr := checkRead_layout (check := check) (rest := []) hlen (by rw [List.append_nil]; exact hn)
    rwa [List.append_nil] at hr
  have hcheck : checkHeard k = true := by
    rw [checkHeard, h.heard, checkEnd_eq, hlength]
    simp only [decide_true, Bool.and_true, decide_eq_true_eq]
    omega
  rw [objectionDue, h.onLine, ho, h.assembler, h.objecting, hcheck, marked, h.heard, hread, h.check, h.fault]
  simp [List.any_eq_true]

theorem exec_receiveCheckFailure_bad (hs : FrameReady s)
    (h : objectionDue (checkedLine (bitsToCheck bytes check spacers) s.line) = true) :
    exec (.receiveCheckFailure bytes check spacers) s = .next { s with
      line := { checkedLine (bitsToCheck bytes check spacers) s.line with objecting := true }
      counters := { s.counters with checkFailures := satCount s.counters.checkFailures } } :=
  congrArg Host.Outcome.next (if_pos (by rw [hs.canTake, h]; rfl))

theorem exec_receiveCheckFailure_good (h : ¬objectionDue (checkedLine (bitsToCheck bytes check spacers) s.line) = true) :
    exec (.receiveCheckFailure bytes check spacers) s = .next s :=
  congrArg Host.Outcome.next (if_neg (by rw [Bool.and_eq_true]; exact fun k => h k.2))

end

theorem satCount_ne {c : Count16} (h : c ≠ 65535) : satCount c ≠ c := by
  rw [satCount, if_neg h]
  simp

/-- Settles O56: the CRC step by step, its residue, the frame that carries it, and the receiver that compares it. -/
theorem checkByteIsTheCrcOfTheCoveredBytes : Obligations.CheckByteIsTheCrcOfTheCoveredBytes := by
  refine ⟨rfl, fun bytes b => ?_, fun bytes => ?_, fun kind source dest payload => rfl,
    fun kind source dest payload covered check s hs hh hc hp hcov => ?_⟩
  · rw [crc8_append]; rfl
  · rw [crc8_append, crc_self]
  · have hlen : covered.length = (List.replicate (payload.length + 2) true).length := by simp [hcov]
    have hn : covered.length = payloadLength (bitsToCheck covered check (List.replicate (payload.length + 2) true)) + 2 := by
      rw [bitsToCheck_layout, payloadLength_layout hlen (b := byteOf (16 * dest.toNat + payload.length)) (by rw [hcov]; rfl),
        (byte_halves dest.isLt (by omega)).2, hcov]
      rfl
    have hheard := checkedLine_heard (l := s.line) hlen hn (fun k => by rw [hh] at k; cases k)
    have hdue := objectionDue_heard hheard hlen hn hs.2.2
    have hrec : false ∉ List.replicate (payload.length + 2) true := by simp
    by_cases hbad : crc8 covered = check
    · refine ⟨s, exec_receiveCheckFailure_good (by rw [hdue]; exact fun k => k.elim hrec (fun g => g hbad)), ?_⟩
      simp [hbad]
    · refine ⟨_, exec_receiveCheckFailure_bad hs (hdue.2 (.inr hbad)), ?_⟩
      simp [satCount_ne hc, hbad]

/-! ### The whole frame from idle (R137, R142) -/

/-- A recessive bit after the check byte: the objection slot makes the assembler READY, and the end bit is the first of the idle. -/
theorem readBit_tail {k : Line} (hc : k.condition = .busy) (h1 : 27 + 9 * payloadLength k.heard ≤ k.heard.length)
    (h2 : k.heard.length < 29 + 9 * payloadLength k.heard) :
    readBit true k = if k.heard.length = 27 + 9 * payloadLength k.heard
      then { k with dominantRun := 0, idleCount := 0, assembler := .ready, objecting := false, heard := k.heard ++ [true] }
      else { k with dominantRun := 0, idleCount := 1, heard := k.heard ++ [true] } := by
  have hw : wholeHeard k = false := by
    rw [wholeHeard, Bool.and_eq_false_iff, decide_eq_false_iff_not, decide_eq_false_iff_not, endPosition, bodyEnd]; omega
  have hasm : assembling k = true := by
    have hne : k.heard.isEmpty = false := by
      rw [List.isEmpty_eq_false_iff]; rintro hnil; rw [hnil] at h1; simp at h1
    simp [assembling, hc, hw, hne]
  have hcov : isCovered (countWithin true k).heard ((countWithin true k).heard.length + 1) = false := by
    simp [isCovered, countWithin, bodyEnd]; omega
  have hsp : isSpacer (countWithin true k).heard ((countWithin true k).heard.length + 1) = false := by
    simp [isSpacer, countWithin, bodyEnd]; omega
  rw [readBit, if_pos hasm, readWithin, if_neg (by rw [slotPosition, bodyEnd]; omega), appendBit, hcov, hsp]
  by_cases hs : k.heard.length = 27 + 9 * payloadLength k.heard
  · rw [if_pos hs, if_pos (by rw [slotPosition, bodyEnd]; omega)]
    simp [countWithin]
  · rw [if_neg hs, if_neg (by rw [slotPosition, bodyEnd]; omega)]
    simp [countWithin]

/-- The objection slot and the end bit, both recessive, end the frame that a line has heard to its check. -/
theorem hear_tail {k : Line} (hc : k.condition = .busy) (hlen : k.heard.length = 27 + 9 * payloadLength k.heard) :
    readBit true (readBit true k) = { k with
      dominantRun := 0, idleCount := 1, assembler := .ready, objecting := false, heard := k.heard ++ [true, true] } := by
  rw [readBit_tail hc (by omega) (by omega), if_pos hlen]
  have hp : payloadLength (k.heard ++ [true]) = payloadLength k.heard := payloadLength_append (by omega)
  have hl : (k.heard ++ [true]).length = k.heard.length + 1 := List.length_append
  rw [readBit_tail (k := { k with
      dominantRun := 0, idleCount := 0, assembler := .ready, objecting := false, heard := k.heard ++ [true] }) hc]
  · rw [if_neg]
    · simp
    · show ¬(k.heard ++ [true]).length = _
      rw [hp, hl]; omega
  · show _ ≤ (k.heard ++ [true]).length
    rw [hp, hl]; omega
  · show (k.heard ++ [true]).length < _
    rw [hp, hl]; omega

/-- A whole frame, heard from idle as the station sends it. -/
theorem hear_frame {kind source dest : BitVec 4} {bytes : List Byte} {l : Line} (h : AtIdle l) (hp : bytes.length ≤ 15) :
    (frameBits kind.toNat source.toNat dest.toNat bytes).foldl (fun k b => readBit b k) l = { l with
      condition := .busy, idleCount := 1, dominantRun := 0, assembler := .ready, objecting := false
      heard := frameBits kind.toNat source.toNat dest.toNat bytes
      check := crc8 (coveredBytes kind.toNat source.toNat dest.toNat bytes), spacerFault := false } := by
  obtain ⟨covered, hcov⟩ : ∃ c, c = coveredBytes kind.toNat source.toNat dest.toNat bytes := ⟨_, rfl⟩
  have hlen : covered.length = (List.replicate (bytes.length + 2) true).length := by rw [hcov]; simp [coveredBytes]
  have hbits := frameBits_layout kind.toNat source.toNat dest.toNat bytes
  rw [← hcov] at hbits
  have hn := payloadLength_frameBits (kind := kind.toNat) (source := source.toNat) dest.isLt hp
  have hn' : covered.length = payloadLength (frameBits kind.toNat source.toNat dest.toNat bytes) + 2 := by
    rw [hn, hcov]; rfl
  have hear := hear_toCheck (check := crc8 covered) (rest := [true, true]) h hlen (by rw [← hbits]; exact hn')
  have hsplit : frameBits kind.toNat source.toNat dest.toNat bytes =
      layout covered (List.replicate (bytes.length + 2) true) (bitsOf (crc8 covered)) ++ [true, true] := by
    rw [hbits]; simp [layout]
  have hheard : (layout covered (List.replicate (bytes.length + 2) true) (bitsOf (crc8 covered))).length =
      27 + 9 * payloadLength (layout covered (List.replicate (bytes.length + 2) true) (bitsOf (crc8 covered))) := by
    have hl := layout_length (tail := bitsOf (crc8 covered)) hlen
    rw [hsplit, payloadLength_append (by rw [hl]; omega)] at hn'
    rw [hl, bitsOf_length]; omega
  rw [hsplit, List.foldl_append, hear, List.foldl_cons, List.foldl_cons, List.foldl_nil, ← hcov]
  rw [hear_tail rfl hheard]
  simp [heardLine]

end Sys2Proof.Machine
end

section
/-! PROOF of O55: frames and requests as the commands of their rows. -/

namespace Sys2Proof.Machine

open Sys2Proof

/-! ### The first due event of an empty queue -/

theorem step_due {s : State} {before after : List (Prop × Instr)} {condition : Prop} {c : Instr} (hs : s.pending = [])
    (hrows : dueRows s = before ++ (condition, c) :: after) (hc : condition) (hb : ∀ r ∈ before, ¬r.1) : step s = exec c s := by
  have hdue : due s = some c := ((dueRows_match s).firstDue c).2 ⟨before, condition, after, hrows, hc, hb⟩
  simp [step, hs, idleStep, hdue]

/-- A frame heard whole is taken before anything else that is due, unless the line becomes STUCK. -/
theorem step_frame {s : State} {c : Instr} (hs : s.pending = []) (h : FrameReady s) (hrun : s.line.dominantRun < 65)
    (h1 : 18 ≤ s.line.heard.length) (h2 : 29 + 9 * payloadLength s.line.heard ≤ s.line.heard.length)
    (hc : c = if s.line.heard[27 + 9 * payloadLength s.line.heard]? = some false then .discardedFrame (frameRead s.line.heard) true
      else frameCommand s.station.number (frameRead s.line.heard)) : step s = exec c s := by
  subst hc
  refine step_due hs (before := (lineRows s).take 3) (after := (dueRows s).drop 4) (condition := FrameReady s ∧ 18 ≤ s.line.heard.length ∧
    29 + 9 * payloadLength s.line.heard ≤ s.line.heard.length) rfl ⟨h, h1, h2⟩ ?_
  rw [show (lineRows s).take 3 = [_, _, _] from rfl]
  simp only [List.forall_mem_cons, List.not_mem_nil, false_implies, implies_true, and_true]
  refine ⟨fun k => by omega, fun k => h.2.1 k.1, fun k => by omega⟩

/-! ### The rows of Table 8-4 -/

theorem stationOf_eq {src : BitVec 4} {st : StationNo} (h : stationOf src = some st) : src.toNat = st.val := by
  rw [stationOf] at h
  split at h
  · cases h; rfl
  · cases h

section
variable {number : StationNo} {f : RxFrame}

theorem frameAction_own (h : f.source.toNat = number.val) : frameAction number f = .duplicate := if_pos h

theorem frameAction_foreign (h1 : f.source.toNat ≠ number.val) (h2 : ¬(8 ≤ f.source.toNat ∧ f.source.toNat ≤ 14)) :
    frameAction number f = if f.kind.toNat < 3 then peerAction f
      else if f.kind = 4 then requestAction number f else .discard := by
  rw [frameAction, if_neg h1, if_neg h2]

end

/-- The rows of frames with a known source. -/
theorem frameCommand_rows (number st : StationNo) (src : BitVec 4) (hsrc : stationOf src = some st) :
    (∀ k d payload, st = number → frameCommand number ⟨k, src, d, payload⟩ = .ownNumberFrameTaken k d payload) ∧
    (st ≠ number →
      (∀ cause, frameCommand number ⟨0, src, 15, [cause]⟩ = .rejoinTaken src cause) ∧
      (∀ a b, frameCommand number ⟨1, src, 15, [a, b]⟩ = .releaseTaken src a b) ∧
      (∀ a b c d, frameCommand number ⟨2, src, 15, [a, b, c, d]⟩ = .claimTaken src a b c d) ∧
      (∀ k d payload, (k = 3 ∨ 5 ≤ k.toNat) →
        frameCommand number ⟨k, src, d, payload⟩ = .discardedFrame ⟨k, src, d, payload⟩ false)) := by
  have hval := stationOf_eq hsrc
  have hlt := st.isLt
  refine ⟨fun k d payload hst => ?_, fun hst => ?_⟩
  · simp only [frameCommand, frameAction_own (number := number) (f := ⟨k, src, d, payload⟩) (by rw [hval, hst])]
  · have hne : src.toNat ≠ number.val := fun h => hst (Fin.ext (hval.symm.trans h))
    have hpeer : ∀ k d payload, frameAction number ⟨k, src, d, payload⟩ = if k.toNat < 3 then peerAction ⟨k, src, d, payload⟩
        else if k = 4 then requestAction number ⟨k, src, d, payload⟩ else .discard := fun k d payload =>
      frameAction_foreign (f := ⟨k, src, d, payload⟩) hne (by simp only; omega)
    have hsrc8 : ¬(¬src.toNat < 8 ∨ (15 : BitVec 4) ≠ 15) := by simp; omega
    refine ⟨fun cause => ?_, fun a b => ?_, fun a b c d => ?_, fun k d payload hk => ?_⟩
    · simp only [frameCommand, hpeer, peerAction, if_neg hsrc8]; rfl
    · simp only [frameCommand, hpeer, peerAction, if_neg hsrc8]; rfl
    · simp only [frameCommand, hpeer, peerAction, if_neg hsrc8]; rfl
    · have hk3 : ¬k.toNat < 3 ∧ k ≠ 4 := by
        rcases hk with rfl | hk
        · decide
        · refine ⟨by omega, ?_⟩
          rintro rfl
          simp at hk
      simp only [frameCommand, hpeer, if_neg hk3.1, if_neg hk3.2]

/-- The rows of a REQUEST. -/
theorem frameCommand_request (number : StationNo) (payload : List Byte) (hp : payload ≠ []) :
    frameCommand number ⟨4, 15, 15, payload⟩ = requestCommand true payload ∧
      ∀ d : BitVec 4, d.toNat = number.val → frameCommand number ⟨4, 15, d, payload⟩ = requestCommand false payload := by
  have hlt := number.isLt
  have hact : ∀ d, frameAction number ⟨4, 15, d, payload⟩ = requestAction number ⟨4, 15, d, payload⟩ := fun d => by
    rw [frameAction_foreign]
    · rfl
    · show 15 ≠ number.val; omega
    · show ¬(8 ≤ 15 ∧ 15 ≤ 14); omega
  have hreq : ¬((15 : BitVec 4) ≠ 15 ∨ payload = []) := by simp [hp]
  refine ⟨?_, fun d hd => ?_⟩
  · have h : requestAction number ⟨4, 15, 15, payload⟩ = .request true := by
      rw [requestAction, if_neg hreq, if_pos rfl]
    simp only [frameCommand, hact, h]
  · have h15 : d ≠ 15 := by rintro rfl; simp at hd; omega
    have h : requestAction number ⟨4, 15, d, payload⟩ = .request false := by
      rw [requestAction, if_neg hreq, if_neg h15, if_pos hd]
    simp only [frameCommand, hact, h]

/-! ### The rows of a REQUEST (Tables 10-1, 10-4 and 11-3) -/

section
variable {b : Bool} {payload : List Byte} {c : Instr}

theorem requestCommand_row (hlen : bytesNeeded payload ≤ payload.length)
    (hk : kindCommand (fun n => ⟨b, payload.drop n⟩) payload = some c) : requestCommand b payload = c := by
  rw [requestCommand, if_neg (Nat.not_lt.2 hlen), hk]; rfl

theorem requestCommand_short (h : payload.length < bytesNeeded payload) : requestCommand b payload = .badKindRequest b payload :=
  if_pos h

theorem requestCommand_unlisted (hk : kindCommand (fun n => ⟨b, payload.drop n⟩) payload = none) :
    requestCommand b payload = .badKindRequest b payload := by
  rw [requestCommand, hk, Option.getD_none, ite_self]

/-- A payload's first bytes one by one. -/
theorem bytes_take {k : Nat} (h : k ≤ payload.length) : (List.range k).map (byteAt payload) = payload.take k := by
  refine List.ext_getElem (by simp [h]) fun i h1 h2 => ?_
  rw [List.getElem_map, List.getElem_range, List.getElem_take, byteAt, List.getD_eq_getElem]

theorem bytes_eq {k : Nat} (h : k ≤ payload.length) : (List.range k).map (byteAt payload) ++ payload.drop k = payload := by
  rw [bytes_take h, List.take_append_drop]

theorem bytesNeeded_of {kind : Byte} (h : byteAt payload 0 = kind) : bytesNeeded payload =
    if kind = 1 ∨ kind = 2 then 6
    else if kind = 3 ∨ kind = 9 then 3
    else if kind = 4 then (if payload.length < 3 then 3 else trainBytes (byteAt payload 2))
    else if kind = 5 then (if payload.length < 2 then 2 else queryBytes (byteAt payload 1))
    else if kind = 6 then (if payload.length < 2 then 2 else setupBytes (byteAt payload 1))
    else 1 := by rw [← h]; rfl

/-- A command of the payload's first k bytes, with the rest of it: nothing is lost. -/
theorem requestOf_row {k : Nat} (hk : k ≤ payload.length)
    (h : requestOf c = some (b, (List.range k).map (byteAt payload) ++ payload.drop k)) : requestOf c = some (b, payload) := by
  rw [h, bytes_eq hk]

theorem trainCommand_kept (hkind : byteAt payload 0 = 4) (hlen : bytesNeeded payload ≤ payload.length)
    (h : trainCommand (fun n => ⟨b, payload.drop n⟩) payload = some c) : requestOf c = some (b, payload) := by
  rw [bytesNeeded_of hkind] at hlen
  have h3 : 3 ≤ payload.length := by
    by_contra hn
    simp [show payload.length < 3 by omega] at hlen
    omega
  have hsub : trainBytes (byteAt payload 2) ≤ payload.length := by simpa [Nat.not_lt.2 h3] using hlen
  rw [trainCommand] at h
  split_ifs at h with h0 h1 h2 hoffer h4 h5
  · cases h; exact requestOf_row h3 (by simp [requestOf, List.range_succ, hkind, h0])
  · cases h; exact requestOf_row h3 (by simp [requestOf, List.range_succ, hkind, h1])
  · rw [h2] at hsub
    cases h; exact requestOf_row (k := 4) hsub (by simp [requestOf, List.range_succ, hkind, h2])
  · rw [hoffer] at hsub
    cases h; exact requestOf_row (k := 5) hsub (by simp [requestOf, List.range_succ, hkind, hoffer])
  · cases h; exact requestOf_row h3 (by simp [requestOf, List.range_succ, hkind, h4])
  · cases h; exact requestOf_row h3 (by simp [requestOf, List.range_succ, hkind, h5])

theorem queryCommand_kept (hkind : byteAt payload 0 = 5) (hlen : bytesNeeded payload ≤ payload.length)
    (h : queryCommand (fun n => ⟨b, payload.drop n⟩) payload = some c) : requestOf c = some (b, payload) := by
  rw [bytesNeeded_of hkind] at hlen
  have h2 : 2 ≤ payload.length := by
    by_contra hn
    simp [show payload.length < 2 by omega] at hlen
    omega
  have hq : queryBytes (byteAt payload 1) ≤ payload.length := by simpa [Nat.not_lt.2 h2] using hlen
  rw [queryCommand] at h
  split_ifs at h with q0 q1 q2 q3 q4 q5 q6 q7
  · cases h; exact requestOf_row h2 (by simp [requestOf, List.range_succ, hkind, q0])
  · rw [q1] at hq; cases h; exact requestOf_row (k := 4) hq (by simp [requestOf, List.range_succ, hkind, q1])
  · rw [q2] at hq; cases h; exact requestOf_row (k := 4) hq (by simp [requestOf, List.range_succ, hkind, q2])
  · rw [q3] at hq; cases h; exact requestOf_row (k := 3) hq (by simp [requestOf, List.range_succ, hkind, q3])
  · rw [q4] at hq; cases h; exact requestOf_row (k := 5) hq (by simp [requestOf, List.range_succ, hkind, q4])
  · rw [q5] at hq; cases h; exact requestOf_row (k := 3) hq (by simp [requestOf, List.range_succ, hkind, q5])
  · rw [q6] at hq; cases h; exact requestOf_row (k := 3) hq (by simp [requestOf, List.range_succ, hkind, q6])
  · rw [q7] at hq; cases h; exact requestOf_row (k := 3) hq (by simp [requestOf, List.range_succ, hkind, q7])

/-- The flag byte of a CANCEL is the one its row and its other bits spell (Table 10-2). -/
theorem cancel_flags : ∀ flags : Byte, byteOf (4 * (flags.extractLsb' 2 6).toNat +
    if flags.getLsbD 1 then (if flags.getLsbD 0 then 3 else 2) else (if flags.getLsbD 0 then 1 else 0)) = flags := by
  decide

theorem cancelCommand_kept (hkind : byteAt payload 0 = 3) (hlen : 3 ≤ payload.length) :
    requestOf (cancelCommand ⟨b, payload.drop 3⟩ payload) = some (b, payload) := by
  have hf := cancel_flags (byteAt payload 2)
  rw [cancelCommand]
  cases hsweep : (byteAt payload 2).getLsbD 1 <;> cases hall : (byteAt payload 2).getLsbD 0 <;>
    rw [hsweep, hall] at hf <;>
    exact requestOf_row hlen (by simpa [requestOf, List.range_succ, hkind] using hf)

theorem two_le_setupBytes (item : Byte) : 2 ≤ setupBytes item := by
  simp only [setupBytes]
  split_ifs <;> decide

theorem setupCommand_kept (hkind : byteAt payload 0 = 6) (hlen : bytesNeeded payload ≤ payload.length) :
    requestOf (setupCommand (fun n => ⟨b, payload.drop n⟩) payload) = some (b, payload) := by
  rw [bytesNeeded_of hkind] at hlen
  have h2 : 2 ≤ payload.length := by
    by_contra hn
    simp [show payload.length < 2 by omega] at hlen
    omega
  have hs : setupBytes (byteAt payload 1) ≤ payload.length := by simpa [Nat.not_lt.2 h2] using hlen
  rw [setupCommand]
  split_ifs with i1 i2 i3 i4
  · rw [i1] at hs; exact requestOf_row (k := 5) hs (by simp [requestOf, List.range_succ, hkind, i1, byteOf])
  · rw [i2] at hs; exact requestOf_row (k := 5) hs (by simp [requestOf, List.range_succ, hkind, i2, byteOf])
  · rw [i3] at hs; exact requestOf_row (k := 5) hs (by simp [requestOf, List.range_succ, hkind, i3, byteOf])
  · rw [i4] at hs; exact requestOf_row (k := 5) hs (by simp [requestOf, List.range_succ, hkind, i4, byteOf])
  · have hfirst : [(6 : Byte), byteAt payload 1] = (payload.take (setupBytes (byteAt payload 1))).take 2 := by
      rw [List.take_take, Nat.min_eq_left (two_le_setupBytes _), ← bytes_take h2, ← hkind]; rfl
    show some (b, [(6 : Byte), byteAt payload 1] ++ (payload.take (setupBytes (byteAt payload 1))).drop 2 ++
      payload.drop (setupBytes (byteAt payload 1))) = some (b, payload)
    rw [hfirst, List.take_append_drop, List.take_append_drop]

/-- No byte of a listed request is lost. -/
theorem kindCommand_kept (hne : payload ≠ []) (hlen : bytesNeeded payload ≤ payload.length)
    (h : kindCommand (fun n => ⟨b, payload.drop n⟩) payload = some c) : requestOf c = some (b, payload) := by
  have h1 : 1 ≤ payload.length := List.length_pos_of_ne_nil hne
  rw [kindCommand] at h
  have six : byteAt payload 0 = 1 ∨ byteAt payload 0 = 2 → 6 ≤ payload.length := fun k => by rwa [bytesNeeded, if_pos k] at hlen
  have three : byteAt payload 0 = 3 ∨ byteAt payload 0 = 9 → 3 ≤ payload.length := fun k => by
    rcases k with k | k <;> simpa [bytesNeeded_of k] using hlen
  by_cases k1 : byteAt payload 0 = 1
  · rw [if_pos k1] at h
    obtain rfl := Option.some.inj h
    exact requestOf_row (six (.inl k1)) (by simp [requestOf, List.range_succ, k1])
  rw [if_neg k1] at h
  by_cases k2 : byteAt payload 0 = 2
  · rw [if_pos k2] at h
    obtain rfl := Option.some.inj h
    exact requestOf_row (six (.inr k2)) (by simp [requestOf, List.range_succ, k2])
  rw [if_neg k2] at h
  by_cases k3 : byteAt payload 0 = 3
  · rw [if_pos k3] at h
    obtain rfl := Option.some.inj h
    exact cancelCommand_kept k3 (three (.inl k3))
  rw [if_neg k3] at h
  by_cases k4 : byteAt payload 0 = 4
  · rw [if_pos k4] at h
    exact trainCommand_kept k4 hlen h
  rw [if_neg k4] at h
  by_cases k5 : byteAt payload 0 = 5
  · rw [if_pos k5] at h
    exact queryCommand_kept k5 hlen h
  rw [if_neg k5] at h
  by_cases k6 : byteAt payload 0 = 6
  · rw [if_pos k6] at h
    obtain rfl := Option.some.inj h
    exact setupCommand_kept k6 hlen
  rw [if_neg k6] at h
  by_cases k7 : byteAt payload 0 = 7
  · rw [if_pos k7] at h
    obtain rfl := Option.some.inj h
    exact requestOf_row h1 (by simp [requestOf, List.range_succ, k7])
  rw [if_neg k7] at h
  by_cases k8 : byteAt payload 0 = 8
  · rw [if_pos k8] at h
    obtain rfl := Option.some.inj h
    exact requestOf_row h1 (by simp [requestOf, List.range_succ, k8])
  rw [if_neg k8] at h
  by_cases k9 : byteAt payload 0 = 9
  · rw [if_pos k9] at h
    by_cases scope : byteAt payload 1 = 0
    · rw [if_pos scope] at h
      obtain rfl := Option.some.inj h
      exact requestOf_row (three (.inr k9)) (by simp [requestOf, List.range_succ, k9, scope])
    rw [if_neg scope] at h
    by_cases scope' : byteAt payload 1 = 1
    · rw [if_pos scope'] at h
      obtain rfl := Option.some.inj h
      exact requestOf_row (three (.inr k9)) (by simp [requestOf, List.range_succ, k9, scope'])
    · rw [if_neg scope'] at h; cases h
  · rw [if_neg k9] at h; cases h

theorem requestCommand_kept (hne : payload ≠ []) : requestOf (requestCommand b payload) = some (b, payload) := by
  by_cases hlen : payload.length < bytesNeeded payload
  · rw [requestCommand_short hlen]; rfl
  · cases hk : kindCommand (fun n => ⟨b, payload.drop n⟩) payload with
    | none => rw [requestCommand_unlisted hk]; rfl
    | some c =>
      rw [requestCommand_row (Nat.not_lt.1 hlen) hk]
      exact kindCommand_kept hne (Nat.not_lt.1 hlen) hk

theorem byteAt_of_code {i n : Nat} (h : codeAt payload i = n) : byteAt payload i = byteOf n := by
  rw [← h]; exact (byteOf_toNat_self _).symm

theorem bytesNeeded_train (h : byteAt payload 0 = 4) : bytesNeeded payload =
    if payload.length < 3 then 3 else trainBytes (byteAt payload 2) := bytesNeeded_of h

theorem bytesNeeded_query (h : byteAt payload 0 = 5) : bytesNeeded payload =
    if payload.length < 2 then 2 else queryBytes (byteAt payload 1) := bytesNeeded_of h

theorem bytesNeeded_setup (h : byteAt payload 0 = 6) : bytesNeeded payload =
    if payload.length < 2 then 2 else setupBytes (byteAt payload 1) := bytesNeeded_of h

/-- A kind that asks for at least k bytes, and then for n by a byte among them, is short with fewer than either. -/
theorem short_by {k n : Nat} (h : bytesNeeded payload = if payload.length < k then k else n)
    (hs : payload.length < k ∨ payload.length < n) : payload.length < bytesNeeded payload := by
  rw [h]; split <;> omega

/-- Check 2 in the terms of Tables 10-1, 10-4 and 11-3. -/
theorem short_of_bytesMissing (h : BytesMissing payload) : payload.length < bytesNeeded payload := by
  rcases h with rfl | ⟨hk, h⟩ | ⟨hk, h⟩ | ⟨hk, h⟩ | ⟨hk, h⟩ | ⟨hk, h⟩
  · decide
  · rcases hk with hk | hk <;> simpa [bytesNeeded_of (byteAt_of_code hk), byteOf] using h
  · rcases hk with hk | hk <;> simpa [bytesNeeded_of (byteAt_of_code hk), byteOf] using h
  · refine short_by (bytesNeeded_train (byteAt_of_code hk)) (h.imp id ?_)
    rintro (⟨hs, h⟩ | ⟨hs, h⟩) <;> simpa [byteAt_of_code hs, trainBytes, byteOf] using h
  · refine short_by (bytesNeeded_query (byteAt_of_code hk)) (h.imp id ?_)
    simp only [List.mem_cons, List.not_mem_nil, or_false]
    rintro (⟨hs | hs | hs | hs, h⟩ | ⟨hs | hs, h⟩ | ⟨hs, h⟩) <;> simpa [byteAt_of_code hs, queryBytes, byteOf] using h
  · refine short_by (bytesNeeded_setup (byteAt_of_code hk)) (h.imp id ?_)
    have hcode : (byteAt payload 1).toNat = codeAt payload 1 := rfl
    simp only [List.mem_cons, List.not_mem_nil, or_false, setupBytes, hcode]
    rintro (⟨hs, h⟩ | ⟨hs, h⟩ | ⟨hs, h⟩)
    · split_ifs <;> omega
    · rw [if_neg (by omega), if_pos (by omega)]; exact h
    · rw [if_pos hs]; exact h

end

/-! ### The rows of each kind -/

section
variable {b : Bool} {extra : List Byte}

theorem byteAt_append {first : List Byte} {i : Nat} (h : i < first.length) : byteAt (first ++ extra) i = byteAt first i := by
  rw [byteAt, byteAt, List.getD_append _ _ _ _ h]

/-- What a kind needs is read off the bytes that a whole request of it has. -/
theorem bytesNeeded_append {first : List Byte} (h : bytesNeeded first ≤ first.length) :
    bytesNeeded (first ++ extra) ≤ first.length := by
  have hpos : 0 < first.length := by
    by_contra hn
    have : first = [] := List.eq_nil_of_length_eq_zero (by omega)
    subst this
    exact absurd h (by decide)
  have h0 := byteAt_append (extra := extra) hpos
  rw [bytesNeeded, h0]
  rw [bytesNeeded] at h
  have hlen : (first ++ extra).length = first.length + extra.length := List.length_append
  have part : ∀ {k n : Nat}, (if first.length < k then k else n) ≤ first.length → k ≤ first.length ∧ n ≤ first.length := fun h => by
    split at h <;> omega
  split at h
  next k => rw [if_pos k]; exact h
  next k =>
    rw [if_neg k]
    split at h
    next k => rw [if_pos k]; exact h
    next k =>
      rw [if_neg k]
      split at h
      next k =>
        obtain ⟨h3, h⟩ := part h
        rw [if_pos k, if_neg (by omega), byteAt_append (by omega)]; exact h
      next k =>
        rw [if_neg k]
        split at h
        next k =>
          obtain ⟨h2, h⟩ := part h
          rw [if_pos k, if_neg (by omega), byteAt_append (by omega)]; exact h
        next k =>
          rw [if_neg k]
          split at h
          next k =>
            obtain ⟨h2, h⟩ := part h
            rw [if_pos k, if_neg (by omega), byteAt_append (by omega)]; exact h
          next k => rw [if_neg k]; exact h

/-- A whole request, with whatever bytes follow, is its row. -/
theorem row_taken {first : List Byte} {c : Instr} (hlen : bytesNeeded first ≤ first.length)
    (hk : kindCommand (fun n => ⟨b, (first ++ extra).drop n⟩) (first ++ extra) = some c) : requestCommand b (first ++ extra) = c :=
  requestCommand_row (Nat.le_trans (bytesNeeded_append hlen) (by rw [List.length_append]; omega)) hk

/-- The row that a CANCEL's flag byte names, and its other bits (Table 10-2). -/
theorem cancel_parts : ∀ (other : BitVec 6) (k : Fin 4), (byteOf (4 * other.toNat + k.val)).getLsbD 1 = decide (2 ≤ k.val) ∧
    (byteOf (4 * other.toNat + k.val)).getLsbD 0 = decide (k.val % 2 = 1) ∧
    (byteOf (4 * other.toNat + k.val)).extractLsb' 2 6 = other := by
  decide

theorem cancel_taken (port : Byte) (other : BitVec 6) (k : Fin 4) :
    requestCommand b ([3, port, byteOf (4 * other.toNat + k.val)] ++ extra) =
      if 2 ≤ k.val then .cancelSweep ⟨b, extra⟩ (decide (k.val % 2 = 1)) port other
      else if k.val % 2 = 1 then .cancelAll ⟨b, extra⟩ port other else .cancel ⟨b, extra⟩ port other := by
  obtain ⟨h1, h0, ho⟩ := cancel_parts other k
  refine row_taken (Nat.le_of_ble_eq_true rfl) (congrArg some ?_)
  show (if (byteOf (4 * other.toNat + k.val)).getLsbD 1 = true then _
    else if (byteOf (4 * other.toNat + k.val)).getLsbD 0 = true then _ else _) = _
  show (if (byteOf (4 * other.toNat + k.val)).getLsbD 1 = true then
      Instr.cancelSweep ⟨b, extra⟩ ((byteOf (4 * other.toNat + k.val)).getLsbD 0) port
        ((byteOf (4 * other.toNat + k.val)).extractLsb' 2 6)
    else if (byteOf (4 * other.toNat + k.val)).getLsbD 0 = true then
      .cancelAll ⟨b, extra⟩ port ((byteOf (4 * other.toNat + k.val)).extractLsb' 2 6)
    else .cancel ⟨b, extra⟩ port ((byteOf (4 * other.toNat + k.val)).extractLsb' 2 6)) = _
  rw [h1, h0, ho]
  simp only [decide_eq_true_eq]

/-- A byte above a bound is none of the listed values. -/
theorem ne_of_above {x : Byte} {n : Nat} (h : n < x.toNat) {y : Byte} (hy : y.toNat ≤ n) : x ≠ y := fun he => by
  rw [he] at h; omega

theorem train_unlisted {port sub : Byte} (h : 5 < sub.toNat) :
    requestCommand b ([4, port, sub] ++ extra) = .badKindRequest b ([4, port, sub] ++ extra) := by
  refine requestCommand_unlisted ?_
  show (if sub = 0 then _ else if sub = 1 then _ else if sub = 2 then _ else if sub = 3 then _ else if sub = 4 then _
    else if sub = 5 then _ else none) = none
  rw [if_neg (ne_of_above h (by decide)), if_neg (ne_of_above h (by decide)), if_neg (ne_of_above h (by decide)),
    if_neg (ne_of_above h (by decide)), if_neg (ne_of_above h (by decide)), if_neg (ne_of_above h (by decide))]

theorem query_unlisted {query : Byte} (h : 7 < query.toNat) :
    requestCommand b ([5, query] ++ extra) = .badKindRequest b ([5, query] ++ extra) := by
  refine requestCommand_unlisted ?_
  show (if query = 0 then _ else if query = 1 then _ else if query = 2 then _ else if query = 3 then _ else if query = 4 then _
    else if query = 5 then _ else if query = 6 then _ else if query = 7 then _ else none) = none
  rw [if_neg (ne_of_above h (by decide)), if_neg (ne_of_above h (by decide)), if_neg (ne_of_above h (by decide)),
    if_neg (ne_of_above h (by decide)), if_neg (ne_of_above h (by decide)), if_neg (ne_of_above h (by decide)),
    if_neg (ne_of_above h (by decide)), if_neg (ne_of_above h (by decide))]

theorem scope_unlisted {scope port : Byte} (h : 1 < scope.toNat) :
    requestCommand b ([9, scope, port] ++ extra) = .badKindRequest b ([9, scope, port] ++ extra) := by
  refine requestCommand_unlisted ?_
  show (if scope = 0 then _ else if scope = 1 then _ else none) = none
  rw [if_neg (ne_of_above h (by decide)), if_neg (ne_of_above h (by decide))]

theorem kind_unlisted {kind : Byte} (h : kind = 0 ∨ 9 < kind.toNat) :
    requestCommand b ([kind] ++ extra) = .badKindRequest b ([kind] ++ extra) := by
  have hne : ∀ y : Byte, y ≠ 0 → y.toNat ≤ 9 → kind ≠ y := fun y h0 h9 => by
    rcases h with rfl | h
    · exact h0.symm
    · exact ne_of_above h h9
  refine requestCommand_unlisted ?_
  show (if kind = 1 then _ else if kind = 2 then _ else if kind = 3 then _ else if kind = 4 then _ else if kind = 5 then _
    else if kind = 6 then _ else if kind = 7 then _ else if kind = 8 then _ else if kind = 9 then _ else none) = none
  rw [if_neg (hne 1 (by decide) (by decide)), if_neg (hne 2 (by decide) (by decide)), if_neg (hne 3 (by decide) (by decide)),
    if_neg (hne 4 (by decide) (by decide)), if_neg (hne 5 (by decide) (by decide)), if_neg (hne 6 (by decide) (by decide)),
    if_neg (hne 7 (by decide) (by decide)), if_neg (hne 8 (by decide) (by decide)), if_neg (hne 9 (by decide) (by decide))]

theorem item_free {item : Byte} (h : 4 < item.toNat) : item ≠ 1 ∧ item ≠ 2 ∧ item ≠ 3 ∧ item ≠ 4 :=
  ⟨ne_of_above h (by decide), ne_of_above h (by decide), ne_of_above h (by decide), ne_of_above h (by decide)⟩

/-- A setup item that is no segment entry, with as many operands as it needs (Table 11-3). -/
theorem setup_taken {item : Byte} {operands : List Byte} (h : item ≠ 1 ∧ item ≠ 2 ∧ item ≠ 3 ∧ item ≠ 4)
    (hn : setupBytes item = operands.length + 2) :
    requestCommand b (6 :: item :: operands ++ extra) = .setup ⟨b, extra⟩ item operands := by
  refine row_taken (first := 6 :: item :: operands) ?_ (congrArg some ?_)
  · rw [bytesNeeded_setup rfl, if_neg (by simp)]
    exact Nat.le_of_eq hn
  · obtain ⟨h1, h2, h3, h4⟩ := h
    rw [setupCommand, if_neg (show ¬byteAt (6 :: item :: operands ++ extra) 1 = 1 from h1),
      if_neg (show ¬byteAt (6 :: item :: operands ++ extra) 1 = 2 from h2),
      if_neg (show ¬byteAt (6 :: item :: operands ++ extra) 1 = 3 from h3),
      if_neg (show ¬byteAt (6 :: item :: operands ++ extra) 1 = 4 from h4)]
    show Instr.setup ⟨b, (6 :: item :: operands ++ extra).drop (setupBytes item)⟩ item
      (((6 :: item :: operands ++ extra).take (setupBytes item)).drop 2) = _
    rw [hn, show operands.length + 2 = (6 :: item :: operands).length from rfl, List.drop_left, List.take_left]
    rfl

end

/-- Settles O55: frames as their bits, their rows, and requests as theirs. -/
theorem framesAreReadBitByBit : Obligations.FramesAreReadBitByBit := by
  refine ⟨fun kind source dest bits bytes l m hp hbits h1 h2 h3 h4 h5 h6 hm => ?_,
    fun bytes check spacers bits n bad s hs hb hsp hbits hn hbad hheard => ?_,
    fun s hs hr hrun h1 h2 => ⟨fun h => ?_, fun h => ?_⟩, fun number st src hsrc => ?_,
    fun b payload => requestCommand_kept, fun b extra via take hvia htake => ?_⟩
  · subst hbits
    exact ⟨frameBits_length _ _ _ _, frameRead_frameBits kind source dest hp, hm.trans (hear_frame ⟨h1, h2, h3, h4, h5, h6⟩ hp)⟩
  · have hlen : bytes.length = spacers.length := hb.trans hsp.symm
    have hbits' : bits = bitsToCheck bytes check spacers := hbits
    have hn' : bytes.length = payloadLength (bitsToCheck bytes check spacers) + 2 := by rw [← hbits', hb, hn]; rfl
    have hmem : spacers.any (!·) = true ↔ false ∈ spacers := by simp
    have hk := checkedLine_heard (l := s.line) (check := check) hlen hn' (fun h => by
      obtain ⟨g1, g2, g3⟩ := hheard (h.trans hbits'.symm)
      exact ⟨g1, g2, by rw [Bool.eq_iff_iff, g3, hmem]⟩)
    have hdue := objectionDue_heard hk hlen hn' hs.2.2
    rw [← hbad] at hdue
    refine ⟨fun h => ⟨_, exec_receiveCheckFailure_bad hs (hdue.2 h), rfl, rfl, hk.heard.trans hbits'.symm, hk.assembler, hk.list,
      hk.duplicate, hk.listenIn, hk.onLine.trans hs.2.2⟩, fun h => exec_receiveCheckFailure_good (by rw [hdue, h]; decide)⟩
  · exact step_frame hs hr hrun h1 h2 (by rw [h]; rfl)
  · exact step_frame hs hr hrun h1 h2 (by rw [h]; rfl)
  · obtain ⟨g1, g2⟩ := frameCommand_rows number st src hsrc
    exact ⟨g1, g2, frameCommand_request number⟩
  · subst hvia htake
    refine ⟨fun port pairs reach n intrusive => row_taken (Nat.le_of_ble_eq_true rfl) rfl,
      fun hi lo reach n period => row_taken (Nat.le_of_ble_eq_true rfl) rfl, fun port other => ?_, fun port => ?_,
      row_taken (Nat.le_of_ble_eq_true rfl) rfl,
      fun port page => ⟨row_taken (Nat.le_of_ble_eq_true rfl) rfl, row_taken (Nat.le_of_ble_eq_true rfl) rfl⟩,
      fun port => ⟨row_taken (Nat.le_of_ble_eq_true rfl) rfl, row_taken (Nat.le_of_ble_eq_true rfl) rfl⟩,
      fun port pair index => row_taken (Nat.le_of_ble_eq_true rfl) rfl,
      fun a => ⟨row_taken (Nat.le_of_ble_eq_true rfl) rfl, row_taken (Nat.le_of_ble_eq_true rfl) rfl⟩, fun query h => ?_,
      fun cls hi lo => row_taken (Nat.le_of_ble_eq_true rfl) rfl, fun i port hi lo => ?_, fun item v w h => ?_, fun item v h => ?_,
      fun item h => ?_, row_taken (Nat.le_of_ble_eq_true rfl) rfl, row_taken (Nat.le_of_ble_eq_true rfl) rfl, fun port => ?_,
      fun kind h => ?_, fun payload h => requestCommand_short (short_of_bytesMissing h)⟩
    · exact ⟨cancel_taken port other 0, cancel_taken port other 1, cancel_taken port other 2, cancel_taken port other 3⟩
    · refine ⟨row_taken (Nat.le_of_ble_eq_true rfl) rfl, row_taken (Nat.le_of_ble_eq_true rfl) rfl,
        fun grade => row_taken (Nat.le_of_ble_eq_true rfl) rfl, fun grades pref => row_taken (Nat.le_of_ble_eq_true rfl) rfl,
        row_taken (Nat.le_of_ble_eq_true rfl) rfl, row_taken (Nat.le_of_ble_eq_true rfl) rfl, fun sub => train_unlisted⟩
    · exact query_unlisted h
    · match i with
      | 0 => exact row_taken (Nat.le_of_ble_eq_true rfl) rfl
      | 1 => exact row_taken (Nat.le_of_ble_eq_true rfl) rfl
      | 2 => exact row_taken (Nat.le_of_ble_eq_true rfl) rfl
      | 3 => exact row_taken (Nat.le_of_ble_eq_true rfl) rfl
    · simp only [List.mem_cons, List.not_mem_nil, or_false] at h
      refine setup_taken (operands := [v, w]) (item_free (by omega)) ?_
      rw [setupBytes, if_neg (by omega), if_pos (by omega)]; rfl
    · simp only [List.mem_cons, List.not_mem_nil, or_false] at h
      refine setup_taken (operands := [v]) (item_free (by omega)) ?_
      rw [setupBytes, if_neg (by omega), if_neg (by omega), if_pos (by omega)]; rfl
    · refine setup_taken (operands := []) (item_free (by omega)) ?_
      rw [setupBytes, if_neg (by omega), if_neg (by omega), if_neg (by omega)]; rfl
    · exact ⟨row_taken (Nat.le_of_ble_eq_true rfl) rfl, row_taken (Nat.le_of_ble_eq_true rfl) rfl, fun scope => scope_unlisted⟩
    · exact kind_unlisted h

end Sys2Proof.Machine
end

section
/-! PROOF of O51 and O52: when a frame starts, what a conflict on the own frame does, and how a departure ends. -/

namespace Sys2Proof.Machine

open Sys2Proof

/-! ### The conflict on the own frame (R140, R141; assumption log 34) -/

section
variable {o : OnLine} {l read : Line} {n : Nat}

/-- The line and the position of a conflict, as the bit read last or the next one. -/
theorem conflict_read (h : if l.heard.getLast? = some false ∧ o.bits[l.heard.length - 1]? = some true then
      read = l ∧ n = l.heard.length else read = readBit false l ∧ n = l.heard.length + 1) :
    read = conflictLine o l ∧ n = conflictPosition o l := by
  by_cases hc : readConflict o l = true
  · rw [if_pos ((readConflict_iff o l).1 hc)] at h
    exact ⟨h.1.trans (if_pos hc).symm, h.2.trans (if_pos hc).symm⟩
  · rw [if_neg fun k => hc ((readConflict_iff o l).2 k)] at h
    exact ⟨h.1.trans (if_neg hc).symm, h.2.trans (if_neg hc).symm⟩

theorem conflictPosition_eq (h : n = if l.heard.getLast? = some false ∧ o.bits[l.heard.length - 1]? = some true then
    l.heard.length else l.heard.length + 1) : n = conflictPosition o l := by
  rw [h]
  exact if_congr (readConflict_iff o l).symm rfl rfl

theorem conflictIn_position (a b : Nat) (h : n = conflictPosition o l) :
    conflictIn a b o l = true ↔ a ≤ n ∧ n ≤ b ∧ o.bits[n - 1]? = some true := by
  subst h
  simp only [conflictIn, Bool.and_eq_true, decide_eq_true_eq, getD_iff _ _ false true (by decide)]
  tauto

theorem losesArbitration_iff (h : n = conflictPosition o l) :
    losesArbitration o l = true ↔ 2 ≤ n ∧ n ≤ 9 ∧ o.bits[n - 1]? = some true :=
  conflictIn_position 2 9 h

theorem faultsTransmit_iff (h : n = conflictPosition o l) :
    faultsTransmit o l = true ↔ 10 ≤ n ∧ n ≤ 27 + 9 * payloadLength o.bits ∧ o.bits[n - 1]? = some true := by
  rw [← checkEnd_eq]
  exact conflictIn_position 10 _ h

end

/-! ### The start of a frame (R139) -/

theorem mayStart_iff (s : State) : mayStart s = true ↔ s.line.list ≠ [] ∧ s.line.onLine = none ∧ s.line.assembler = .ready ∧
    s.line.idleCount = 11 ∧ s.line.condition = .idle ∧ s.line.listenIn.running = false ∧ s.station.phase ≠ .listen := by
  simp [mayStart, and_assoc]

theorem exec_frameStart {s : State} {f : Frame} {rest : List Frame} (hl : s.line.list = f :: rest) :
    exec .frameStart s = .next (if mayStart s = true then startFrame f s else s) := by
  change execFrameStart s = _
  simp only [execFrameStart, hl]

/-! ### The loss of arbitration and the transmit fault -/

section
variable {s : State} {o : OnLine}

theorem exec_arbitrationLoss (ho : s.line.onLine = some o) : exec .arbitrationLoss s = .next (if losesArbitration o s.line = true then
    pendingClaimStop o.frame { s with
      line := stopDriving (conflictLine o s.line)
      counters := { s.counters with arbitrationLosses := satCount s.counters.arbitrationLosses } } else s) := by
  change execArbitrationLoss s = _
  simp only [execArbitrationLoss, ho]

theorem exec_transmitFault (ho : s.line.onLine = some o) : exec .transmitFault s = .next (if faultsTransmit o s.line = true then
    departed .abandoned o.frame (departFrame .abandoned (fun f => decide (f = o.frame)) s) else s) := by
  change execTransmitFault s = _
  simp only [execTransmitFault, ho]

theorem pendingClaimStop_none {f : Frame} (h : ∀ ch, f.kind = .claim → f.channel = some ch → (s.chan ch).stop = none) :
    pendingClaimStop f s = s := by
  cases hk : f.kind <;> cases hc : f.channel <;> simp only [pendingClaimStop, hk, hc]
  rw [h _ hk hc]

theorem pendingClaimStop_some {f : Frame} {ch : ChannelId} {x : StopOutcome} (hk : f.kind = .claim) (hc : f.channel = some ch)
    (hx : (s.chan ch).stop = some x) : pendingClaimStop f s = react (stopNow ch x s) := by
  simp only [pendingClaimStop, hk, hc, hx]

/-- An abandoned departure of the own frame (R141). -/
theorem departFrame_abandoned (ho : s.line.onLine = some o) (test : Frame → Bool) : departFrame .abandoned test s = { s with
    line := { conflictLine o s.line with
      onLine := none, assembler := .receiving, condition := .busy, idleCount := 0, list := takeOut test s.line.list }
    counters := { s.counters with transmitFaults := satCount s.counters.transmitFaults } } := by
  simp only [departFrame, ho]
  rfl

end

/-! ### What the block that placed a frame does (Table 8-5) -/

theorem channelReleased_of {c : Channel} (h : c.phase = .releasing) : channelReleased c = { c with phase := .idle, claim := none } := by
  simp only [channelReleased, h]

theorem channelReleased_ne {c : Channel} (h : c.phase ≠ .releasing) : channelReleased c = c := by
  cases hp : c.phase <;> simp_all [channelReleased]

theorem rejoinLeft_again {how : Departure} {f : Frame} {s : State} (hh : how ≠ .sent) (hr : f.retried = false) :
    rejoinLeft how f s = { s with line := { s.line with list := insertFrame { f with retried := true } s.line.list } } := by
  have : (how != .sent && !f.retried) = true := by simp [hh, hr]
  exact if_pos this

/-- A REJOIN that is over announces the station, but for the one of a line return (R184). -/
theorem rejoinLeft_over {how : Departure} {f : Frame} {s : State} (h : how = .sent ∨ f.retried = true) :
    rejoinLeft how f s = { s with station := { s.station with announced := s.station.announced || decide (f.payload ≠ [3]) } } := by
  have hno : ¬(how != .sent && !f.retried) = true := by
    rcases h with h | h <;> simp [h]
  have h3 : startCauseCode .lineReturn = 3 := rfl
  rw [rejoinLeft, if_neg hno, h3]
  by_cases hp : f.payload = [3]
  · rw [if_pos hp]; simp [hp]
  · rw [if_neg hp, decide_eq_true hp, Bool.or_true]

theorem departed_rejoin {f : Frame} (hk : f.kind = .rejoin) (how : Departure) (s : State) :
    departed how f s = react (rejoinLeft how f s) := by
  simp only [departed, hk]

/-- Settles O51: the conflict read gives the line and the position the conditions speak of. -/
theorem framesStartLoseAndAbort : Obligations.FramesStartLoseAndAbort := by
  unfold Obligations.FramesStartLoseAndAbort
  intro s
  refine ⟨fun f rest hl => ⟨?_, ?_⟩, fun o st read n ho hlen hbits hread => ?_⟩
  · intro h1 h2 h3 h4 h5 h6
    rw [exec_frameStart hl, if_pos ((mayStart_iff s).2 ⟨by simp [hl], h1, h2, h3, h4, h5, h6⟩)]
    rfl
  · intro h
    have hno : ¬mayStart s = true := fun k => by
      obtain ⟨-, k1, k2, k3, k4, k5, k6⟩ := (mayStart_iff s).1 k
      simp [k1, k2, k3, k4, k5, k6] at h
    rw [exec_frameStart hl, if_neg hno]
  · obtain ⟨rfl, hn⟩ := conflict_read hread
    have hpay : payloadLength o.bits = o.frame.payload.length := by
      rw [hbits]; exact payloadLength_frameBits (by omega) hlen
    have hloss := losesArbitration_iff hn
    have hfault := faultsTransmit_iff hn
    rw [hpay] at hfault
    refine ⟨fun h2 h9 hb w hw => ?_, fun h => ?_, fun h10 hend hb w hw => ?_, fun h => ?_⟩
    · have hx : exec .arbitrationLoss s = .next (pendingClaimStop o.frame w) := by
        rw [exec_arbitrationLoss ho, if_pos (hloss.2 ⟨h2, h9, hb⟩), hw]; rfl
      have hchan : ∀ ch, w.chan ch = s.chan ch := fun ch => by rw [hw]; rfl
      refine ⟨fun hnone => ?_, fun ch x hk hc hs => ?_⟩
      · rw [hx, pendingClaimStop_none fun ch hk hc => (congrArg Channel.stop (hchan ch)).trans (hnone ch hk hc)]
      · exact ⟨_, by rw [hx, pendingClaimStop_some hk hc ((congrArg Channel.stop (hchan ch)).trans hs)], stopTaken_stopNow _ _ _⟩
    · rw [exec_arbitrationLoss ho, if_neg]
      rw [hloss]
      rintro ⟨h1, h3, hb⟩
      rcases h with h | h | h
      · omega
      · omega
      · rw [hb] at h; cases h
    · have hx : exec .transmitFault s = .next (departed .abandoned o.frame w) := by
        rw [exec_transmitFault ho, if_pos (hfault.2 ⟨h10, hend, hb⟩), departFrame_abandoned ho, hw]
      have hchan : ∀ ch, w.chan ch = s.chan ch := fun ch => by rw [hw]; rfl
      refine ⟨fun hk => ?_, fun ch hk hc _ => ⟨_, ?_, stopTaken_stopNow _ _ _⟩, fun ch hk hc hp => ?_, fun hk hr => ?_, fun hk hr => ?_⟩
      · rw [hx]
        rcases hk with hk | hk <;> simp only [departed, hk]
      · rw [hx, ← hchan ch]
        simp only [departed, hk, hc]
        rfl
      · rw [hx]
        simp only [departed, hk, hc]
        exact congrArg (fun t => Host.Outcome.next (react t))
          (State.modChan_congr _ ch channelReleased _ (channelReleased_of (by rw [hchan, hp])))
      · rw [hx, departed_rejoin hk, rejoinLeft_again (by decide) hr]
      · rw [hx, departed_rejoin hk, rejoinLeft_over (.inr hr), hw]
    · rw [exec_transmitFault ho, if_neg]
      rw [hfault]
      rintro ⟨h1, h3, hb⟩
      rcases h with h | h | h
      · omega
      · omega
      · rw [hb] at h; cases h

/-! ### How a departure ends (Table 8-5) -/

/-- The commands of a departure in a way. -/
def departureCommands (how : Departure) : List Instr :=
  [.reportDeparture how, .alertDeparture how, .rejoinDeparture how, .claimFrameDeparture 0 how, .claimFrameDeparture 1 how,
    .releaseDeparture 0 how, .releaseDeparture 1 how]

section
variable {s t : State} {o : OnLine} {how : Departure}

/-- A departure that cannot arise does nothing. -/
theorem exec_departure_none (h : ∀ b test, canDepart how b test s = false) : ∀ c ∈ departureCommands how, exec c s = .next s := by
  have hno : ∀ (b : Bool) (test : Frame → Bool) (u : State), (if canDepart how b test s then u else s) = s := fun b test u => by
    rw [h b test]; rfl
  have hrejoin : exec (.rejoinDeparture how) s = .next s := by
    refine congrArg Host.Outcome.next ?_
    cases listedRejoin s with
    | none => rfl
    | some f => exact hno _ _ _
  simp only [departureCommands, List.forall_mem_cons, List.not_mem_nil, false_implies, implies_true, and_true]
  exact ⟨congrArg Host.Outcome.next (hno _ _ _), congrArg Host.Outcome.next (hno _ _ _), hrejoin,
    congrArg Host.Outcome.next (hno _ _ _), congrArg Host.Outcome.next (hno _ _ _), congrArg Host.Outcome.next (hno _ _ _),
    congrArg Host.Outcome.next (hno _ _ _)⟩

/-- A discard takes a waiting frame out of the list and changes nothing else (R150). -/
theorem departFrame_discarded (test : Frame → Bool) (s : State) :
    departFrame .discarded test s = { s with line := { s.line with list := takeOut test s.line.list } } := by
  simp only [departFrame]
  split <;> rfl

/-- An own frame that is not at the bit of a departure does not depart. -/
theorem canDepart_false (ho : s.line.onLine = some o) (hd : how ≠ .discarded) (h : leavesLine how o s.line = false) (b : Bool)
    (test : Frame → Bool) : canDepart how b test s = false := by
  cases how with
  | discarded => exact absurd rfl hd
  | sent | voided | abandoned => simp [canDepart, ho, h]

/-- The slot is the bit read last or the next one, and no other. -/
theorem slotReads_false (level : Bool) (h1 : s.line.heard.length + 1 ≠ o.bits.length) (h2 : s.line.heard.length + 2 ≠ o.bits.length) :
    slotReads level o s.line = false := by
  have he : ownSlot o = o.bits.length - 1 := rfl
  unfold slotReads
  by_cases hc : s.line.heard.length = ownSlot o
  · have hnil : s.line.heard = [] := List.length_eq_zero_iff.1 (by omega)
    rw [if_pos hc, hnil]
    rfl
  · rw [if_neg hc, decide_eq_false_iff_not]
    omega

/-- The departures of a frame that leaves the line, by its kind. -/
theorem departure_of_leaves (h : FrameLeaves how o s t) :
    (o.frame.kind = .report → exec (.reportDeparture how) s = .next (withoutFrame (fun f => f.kind == .report) t)) ∧
    (o.frame.kind = .alert → exec (.alertDeparture how) s = .next (withoutFrame (fun f => f.kind == .alert) t)) ∧
    (∀ f, o.frame.kind = .rejoin → s.line.list.find? (fun x => x.kind == .rejoin) = some f →
      exec (.rejoinDeparture how) s = .next (react (rejoinLeft how f (withoutFrame (fun x => x.kind == .rejoin) t)))) := by
  have hcan : ∀ k b, o.frame.kind = k → canDepart how b (isKind k) s = true := fun k b hk =>
    h.canDepart b _ (by simp [isKind, hk])
  refine ⟨fun hk => ?_, fun hk => ?_, fun f hk hf => ?_⟩
  · exact congrArg Host.Outcome.next ((if_pos (hcan _ _ hk)).trans (h.departs.2 _))
  · exact congrArg Host.Outcome.next ((if_pos (hcan _ _ hk)).trans (h.departs.2 _))
  · have hlist : listedRejoin s = some f := hf
    change execRejoinDeparture how s = _
    simp only [execRejoinDeparture, hlist, if_pos (hcan _ false hk), h.departs.2]
    rfl

/-- The departure at the slot that has been read comes first of what is due. -/
theorem step_slot {level : Bool} {c : Instr} (hs : s.pending = []) (ho : s.line.onLine = some o)
    (hlen : o.bits.length = 29 + 9 * payloadLength o.bits) (hst : s.line.condition ≠ .stuck) (hrun : s.line.dominantRun < 65)
    (hslot : s.line.heard.length + 1 = o.bits.length) (hlevel : s.line.heard.getLast? = some level)
    (hc : departureCommand o.frame (if level then .sent else .voided) = some c) : step s = exec c s := by
  have hway : (if s.line.heard.getLast? = some false then Departure.voided else .sent) = if level then .sent else .voided := by
    rw [hlevel]; cases level <;> rfl
  have hrows : ownFrameRows o s.line = (ownFrameRows o s.line).take 2 ++ [(s.line.heard.length = o.bits.length - 1, c)] := by
    simp only [ownFrameRows, hway, hc]; rfl
  have hline : lineRows s = (lineRows s).take 4 ++ ownFrameRows o s.line := by
    simp only [lineRows, ho]; rfl
  obtain ⟨after, hdue⟩ : ∃ after, dueRows s = lineRows s ++ after := by
    simp only [dueRows, List.append_assoc]; exact ⟨_, rfl⟩
  refine step_due hs (before := (lineRows s).take 4 ++ (ownFrameRows o s.line).take 2) (after := after)
    (condition := s.line.heard.length = o.bits.length - 1) ?_ (by omega) ?_
  · rw [hdue]
    conv_lhs => rw [hline, hrows]
    simp
  · rw [show (lineRows s).take 4 = [_, _, _, _] from rfl, show (ownFrameRows o s.line).take 2 = [_, _] from rfl]
    simp only [List.cons_append, List.nil_append, List.forall_mem_cons, List.not_mem_nil, false_implies, implies_true, and_true]
    have hready : ¬FrameReady s := fun k => by rw [k.2.2] at ho; cases ho
    exact ⟨fun k => by omega, fun k => hst k.1, fun k => hready k.1, fun k => hready k.1, fun k => by omega, fun k => by omega⟩

end

/-- Settles O52: each departure by its kind, the bits at which none arises, and what line trouble discards. -/
theorem departuresEndAsTheirKindSays : Obligations.DeparturesEndAsTheirKindSays := by
  unfold Obligations.DeparturesEndAsTheirKindSays
  refine ⟨fun how o s t h => ?_, fun how o s ho hway h1 h2 => ?_, fun o s n ho hn h => ?_,
    fun o st level c s hs ho hbits hlen hst hrun hslot hlevel hc => ?_, fun s hst hf => ?_, fun ch s hst hp hf => ?_⟩
  · obtain ⟨hreport, halert, hrejoin⟩ := departure_of_leaves h
    refine ⟨hreport, halert, fun f u hk hf hu => ⟨fun hover => ?_, fun hh hr => ?_⟩⟩
    · have hstation : u.station = s.station := by rw [hu, withoutFrame_rest h]
      rw [hrejoin f hk hf, ← hu, rejoinLeft_over hover, hstation]
    · rw [hrejoin f hk hf, ← hu, rejoinLeft_again hh hr]
  · refine exec_departure_none (canDepart_false ho ?_ ?_)
    · rcases hway with rfl | rfl <;> decide
    · rcases hway with rfl | rfl
      · exact slotReads_false _ h1 h2
      · exact slotReads_false _ h1 h2
  · refine exec_departure_none (canDepart_false ho (by decide) (Bool.eq_false_iff.2 fun k => ?_))
    obtain ⟨h1, h3, hb⟩ := (faultsTransmit_iff (conflictPosition_eq hn)).1 k
    rcases h with h | h | h
    · omega
    · omega
    · exact h hb
  · have hpay : payloadLength o.bits = o.frame.payload.length := by
      rw [hbits]; exact payloadLength_frameBits (by omega) hlen
    exact step_slot hs ho (by rw [hpay, hbits, frameBits_length]) hst hrun hslot hlevel hc
  · obtain ⟨f, hmem, hk⟩ := hf
    have hcan : canDepart .discarded (s.line.condition == .stuck) (isKind .report) s = true := by
      simpa [canDepart, hst, isKind] using ⟨f, hmem, hk⟩
    exact congrArg Host.Outcome.next ((if_pos hcan).trans (departFrame_discarded _ s))
  · have hcan : canDepart .discarded (releaseDiscarded s) (fun f => f.isFor .release ch) s = true := by
      simpa [canDepart, releaseDiscarded] using ⟨hst, hf⟩
    refine congrArg Host.Outcome.next ((if_pos hcan).trans (congrArg react ?_))
    rw [departFrame_discarded]
    exact State.modChan_congr _ ch channelReleased _ (channelReleased_of hp)

end Sys2Proof.Machine
end

section
/-! PROOF of O53 and O54: line trouble and the duplicate, and the frames that are discarded. -/

namespace Sys2Proof.Machine

open Sys2Proof

/-! ### Line trouble at the channels (R100, R101) -/

section
variable {ch : ChannelId} {s : State}

theorem claimOnLine_free (h : s.line.onLine = none) : claimOnLine ch s = false := by
  cases hc : claimOnLine ch s with
  | false => rfl
  | true => obtain ⟨f, hf, -⟩ := claimOnLine_iff.1 hc; rw [h] at hf; cases hf

/-- Without a CLAIM on the line, trouble stops the measurement at once. -/
theorem troubleTaken (h : s.line.onLine = none) : TroubleTaken ch s (troubleAt ch s) := by
  refine ⟨fun hp => ?_, fun hp => ?_⟩
  · rcases hp with hp | hp | hp <;> simp [troubleAt, hp]
  · have hstop : troubleAt ch s = stopChannel ch .withdrawn s := by
      rcases hp with hp | hp | hp <;> simp [troubleAt, hp]
    have hnow : stopChannel ch .withdrawn s = stopNow ch (mergeStop (s.chan ch).stop .withdrawn) s := by
      refine stopChannel_now ?_
      rcases hp with hp | hp | hp
      · exact .inl hp
      · exact .inr (.inr (.inl ⟨hp, claimOnLine_free h⟩))
      · exact .inr (.inl hp)
    rw [hstop, hnow]
    exact stopTaken_stopNow _ _ _

theorem troubleAt_onLine (h : s.line.onLine = none) : (troubleAt ch s).line.onLine = none := by
  have hstop : (stopChannel ch .withdrawn s).line.onLine = none :=
    ((lineButList_closed s.line).stopChannel ch .withdrawn s rfl).onLine.trans h
  cases hp : (s.chan ch).phase <;> simp only [troubleAt, hp] <;> assumption

/-- Trouble at both channels, channel 0 first (assumption log 33). -/
theorem trouble_taken (h : s.line.onLine = none) :
    ∃ u, TroubleTaken 0 s u ∧ TroubleTaken 1 u (trouble s) :=
  ⟨troubleAt 0 s, troubleTaken h, troubleTaken (troubleAt_onLine h)⟩

end

/-! ### The bits between frames (R136) -/

section
variable {l : Line}

/-- A line that is STUCK, hears nothing or has heard a frame whole is assembling none. -/
theorem not_assembling (h : l.condition = .stuck ∨ (l.assembler ≠ .receiving ∧ l.heard = []) ∨
    (18 ≤ l.heard.length ∧ 29 + 9 * payloadLength l.heard ≤ l.heard.length)) : assembling l = false := by
  have he : endPosition l.heard = 29 + 9 * payloadLength l.heard := by simp only [endPosition, bodyEnd]; omega
  rcases h with h | ⟨h1, h2⟩ | ⟨h1, h2⟩
  · simp [assembling, h]
  · simp [assembling, h1, h2]
  · simp [assembling, wholeHeard, he, h1, h2]

theorem readBit_between (b : Bool) (h : assembling l = false) : readBit b l = readBetween b (forgetFrame l) := by
  rw [readBit, h]; rfl

theorem readBit_idle (h : assembling l = false) : readBit true l = { l with
    heard := [], check := 0, spacerFault := false, objecting := false, dominantRun := 0
    idleCount := min 11 (l.idleCount + 1)
    condition := if l.condition = .stuck then .stuck else if 10 ≤ l.idleCount then .idle else .busy
    assembler := if l.condition ≠ .stuck ∧ 10 ≤ l.idleCount then .ready else l.assembler } := by
  rw [readBit_between _ h]
  by_cases hs : l.condition = .stuck
  · simp [readBetween, settleCondition, countBetween, forgetFrame, hs]
  · by_cases h10 : 10 ≤ l.idleCount
    · have : min 11 (l.idleCount + 1) = 11 := by omega
      simp [readBetween, settleCondition, countBetween, forgetFrame, hs, h10]
    · have : min 11 (l.idleCount + 1) ≠ 11 := by omega
      simp [readBetween, settleCondition, countBetween, forgetFrame, hs, h10]

theorem readBit_stray (h : assembling l = false) (hno : l.condition = .stuck ∨ l.idleCount ≠ 11 ∨ l.assembler ≠ .ready) :
    readBit false l = { l with
      heard := [], check := 0, spacerFault := false, objecting := false, idleCount := 0
      dominantRun := min 65 (l.dominantRun + 1)
      condition := if l.condition = .stuck then .stuck else .busy } := by
  have hstart : (!false && (forgetFrame l).idleCount == 11 && (forgetFrame l).assembler == .ready &&
      (forgetFrame l).condition != .stuck) = false := by
    simp only [forgetFrame]
    rcases hno with hno | hno | hno <;> simp [hno]
  rw [readBit_between _ h, readBetween, hstart]
  by_cases hs : l.condition = .stuck <;> simp [settleCondition, countBetween, forgetFrame, hs]

theorem readBit_start (h : assembling l = false) (h1 : l.condition ≠ .stuck) (h2 : l.idleCount = 11) (h3 : l.assembler = .ready) :
    readBit false l = { l with
      heard := [false], check := 0, spacerFault := false, objecting := false, idleCount := 0
      dominantRun := min 65 (l.dominantRun + 1), condition := .busy, assembler := .receiving } := by
  rw [readBit_between _ h, readBetween, if_pos (by simp [forgetFrame, h1, h2, h3])]
  simp [appendBit, countWithin, forgetFrame, isCovered, isSpacer]

end

/-! ### Entry to STUCK, and the line's return (R149 to R151) -/

/-- The list without the frames that STUCK discards. -/
theorem releaseAllDiscarded_list (s : State) : releaseAllDiscarded s = { s with
    channels := (releaseAllDiscarded s).channels
    line := { s.line with list := s.line.list.filter (fun f => decide (f.kind ≠ .release ∧ f.kind ≠ .report)) } } := by
  have hf : s.line.list.filter (fun f => !(isKind .release f || isKind .report f)) =
      s.line.list.filter (fun f => decide (f.kind ≠ .release ∧ f.kind ≠ .report)) :=
    List.filter_congr fun f _ => by cases h : f.kind <;> simp [isKind, h]
  rw [← hf]
  rfl

theorem modBoth_chan (s : State) (f : Channel → Channel) (ch : ChannelId) :
    ((s.modChan 0 f).modChan 1 f).chan ch = f (s.chan ch) := by
  match ch with
  | 0 => rw [State.modChan_chan_ne _ _ _ _ (by decide), State.modChan_chan_self]
  | 1 => rw [State.modChan_chan_self, State.modChan_chan_ne _ _ _ _ (by decide)]

theorem releaseAllDiscarded_chan (s : State) (ch : ChannelId) : (releaseAllDiscarded s).chan ch =
    if (s.chan ch).phase = .releasing then { s.chan ch with phase := .idle, claim := none } else s.chan ch := by
  have hone : (releaseAllDiscarded s).chan ch = channelReleased (s.chan ch) := modBoth_chan _ _ ch
  rw [hone]
  by_cases h : (s.chan ch).phase = .releasing
  · rw [if_pos h, channelReleased_of h]
  · rw [if_neg h, channelReleased_ne h]

theorem exec_stuckEntry {s : State} (h : s.line.condition ≠ .stuck) : exec .stuckEntry s = .next (enterStuck s) :=
  congrArg Host.Outcome.next (if_neg h)

theorem enterStuck_taken (s : State) : ∃ w u v t, enterStuck s = react t ∧
    w = raise .lineStuck { s with line := lineStuck s.line } ∧ TroubleTaken 0 w u ∧ TroubleTaken 1 u v ∧
    t = { v with
      channels := t.channels
      line := { v.line with list := v.line.list.filter (fun f => decide (f.kind ≠ .release ∧ f.kind ≠ .report)) } } ∧
    ∀ ch, t.chan ch = if (v.chan ch).phase = .releasing then { v.chan ch with phase := .idle, claim := none } else v.chan ch := by
  have hline : (raise .lineStuck { s with line := lineStuck s.line }).line.onLine = none := by rw [raise_eq]; rfl
  obtain ⟨u, h0, h1⟩ := trouble_taken hline
  exact ⟨_, u, _, _, rfl, rfl, h0, h1, releaseAllDiscarded_list _, releaseAllDiscarded_chan _⟩

theorem placeRejoin_eq (c : StartCause) (s : State) : placeRejoin c s = { s with line := { s.line with
    list := if s.line.list.any (fun f => f.kind == .rejoin) then s.line.list
      else insertFrame (rejoinFrame c) s.line.list } } := by
  have hany : countKind .rejoin s.line.list = 0 ↔ ¬(s.line.list.any (fun f => f.kind == .rejoin)) = true := by
    rw [countKind_eq_zero]; simp
  rw [placeRejoin]
  by_cases h : s.line.list.any (fun f => f.kind == .rejoin) = true
  · rw [if_neg fun k => hany.1 k h, if_pos h]
  · rw [if_pos (hany.2 h), if_neg h, placeFrame]

theorem betweenFrames_iff (s : State) : betweenFrames s = true ↔
    s.line.onLine = none ∧ (s.line.assembler ≠ .receiving ∨ s.line.objecting = true) ∧ s.line.condition ≠ .stuck := by
  simp [betweenFrames, and_assoc]

/-- Settles O53: the bits between frames, and the entry to STUCK and the return as they stand in the model. -/
theorem lineTroubleBeginsAndEnds : Obligations.LineTroubleBeginsAndEnds := by
  unfold Obligations.LineTroubleBeginsAndEnds
  refine ⟨fun l h => ⟨readBit_idle (not_assembling h), readBit_stray (not_assembling h), readBit_start (not_assembling h)⟩,
    fun s => ⟨fun ho hc => ⟨fun hb => ?_, fun ha hi hh => ⟨fun hrun => ?_, fun hrun => ?_⟩⟩, fun hc => ?_, fun hc => ⟨?_, ?_⟩,
      fun hr => ?_⟩⟩
  · exact congrArg Host.Outcome.next (if_pos ((betweenFrames_iff s).2 ⟨ho, hb, hc⟩))
  · have hstray : (betweenFrames s && !assembling s.line && decide (s.line.idleCount < 11)) = true := by
      rw [(betweenFrames_iff s).2 ⟨ho, .inl ha, hc⟩, not_assembling (.inr (hh.imp (⟨ha, ·⟩) id)), decide_eq_true hi]; rfl
    exact congrArg Host.Outcome.next ((if_pos hstray).trans (if_neg (by omega)))
  · have hstray : (betweenFrames s && !assembling s.line && decide (s.line.idleCount < 11)) = true := by
      rw [(betweenFrames_iff s).2 ⟨ho, .inl ha, hc⟩, not_assembling (.inr (hh.imp (⟨ha, ·⟩) id)), decide_eq_true hi]; rfl
    rw [exec_stuckEntry hc]
    exact congrArg Host.Outcome.next ((if_pos hstray).trans (if_pos hrun))
  · obtain ⟨w, u, v, t, hx, h⟩ := enterStuck_taken s
    exact ⟨w, u, v, t, by rw [exec_stuckEntry hc, hx], h⟩
  · exact congrArg Host.Outcome.next (if_pos hc)
  · exact congrArg Host.Outcome.next (if_pos hc)
  · refine congrArg Host.Outcome.next ((if_pos hr).trans (congrArg react ?_))
    exact placeRejoin_eq _ _

/-! ### The duplicate condition, and the frames no row takes (R144, R152) -/

section
variable {s : State}

/-- A REJOIN, RELEASE or CLAIM of another source, destination or length than its kind has (R144). -/
theorem peerAction_discard {f : RxFrame} (hd : f.source = 15 ∨ f.dest ≠ 15 ∨
    f.payload.length ≠ (if f.kind = 0 then 1 else if f.kind = 1 then 2 else 4)) : peerAction f = .discard := by
  have hkind : ∀ k : BitVec 4, f.kind.toNat = k.toNat → f.kind = k := fun k => BitVec.eq_of_toNat_eq
  rw [peerAction]
  by_cases hs : ¬f.source.toNat < 8 ∨ f.dest ≠ 15
  · rw [if_pos hs]
  · obtain ⟨h8, h15⟩ : f.source.toNat < 8 ∧ f.dest = 15 := by simpa [not_or] using hs
    have hlen : f.payload.length ≠ (if f.kind = 0 then 1 else if f.kind = 1 then 2 else 4) := by
      rcases hd with hd | hd | hd
      · rw [hd] at h8; simp at h8
      · exact absurd h15 hd
      · exact hd
    rw [if_neg hs]
    split
    · next hk hp => rw [hkind 0 hk, hp] at hlen; simp at hlen
    · next hk hp => rw [hkind 1 hk, hp] at hlen; simp at hlen
    · next hk hp => rw [hkind 2 hk, hp] at hlen; simp at hlen
    · rfl

/-- A frame that no row of Table 8-4 takes. -/
theorem frameAction_discard {number : StationNo} {f : RxFrame} (hs : f.source.toNat ≠ number.val)
    (h : (8 ≤ f.source.toNat ∧ f.source.toNat ≤ 14) ∨ f.kind = 3 ∨ 5 ≤ f.kind.toNat ∨
      (f.kind.toNat < 3 ∧ (f.source = 15 ∨ f.dest ≠ 15 ∨
        f.payload.length ≠ (if f.kind = 0 then 1 else if f.kind = 1 then 2 else 4))) ∨
      (f.kind = 4 ∧ (f.source ≠ 15 ∨ f.payload = [] ∨ (f.dest ≠ 15 ∧ f.dest.toNat ≠ number.val)))) :
    frameAction number f = .discard := by
  by_cases h8 : 8 ≤ f.source.toNat ∧ f.source.toNat ≤ 14
  · rw [frameAction, if_neg hs, if_pos h8]
  rw [frameAction_foreign hs h8]
  rcases h with h | h | h | ⟨h, hd⟩ | ⟨h, hd⟩
  · exact absurd h h8
  · rw [h]; rfl
  · rw [if_neg (by omega), if_neg (by rintro k; rw [k] at h; simp at h)]
  · rw [if_pos h]
    exact peerAction_discard hd
  · rw [if_neg (by rw [h]; decide), if_pos h, requestAction]
    rcases hd with hd | hd | ⟨h1, h2⟩
    · rw [if_pos (.inl hd)]
    · rw [if_pos (.inr hd)]
    · rw [if_neg h1, if_neg h2, ite_self]

theorem raiseDuplicate_taken (h : s.line.onLine = none) (hd : s.line.duplicate = false) : ∃ w u t,
    w = raise .duplicateStation { s with line := { s.line with duplicate := true } } ∧
    TroubleTaken 0 w u ∧ TroubleTaken 1 u t ∧ raiseDuplicate s = react t := by
  have hline : (raise .duplicateStation { s with line := { s.line with duplicate := true } }).line.onLine = none := by
    rw [raise_eq]; exact h
  obtain ⟨u, h0, h1⟩ := trouble_taken hline
  exact ⟨_, u, _, rfl, h0, h1, if_neg (by rw [hd]; decide)⟩

theorem exec_discardedFrame (h : FrameReady s) (f : RxFrame) (voided : Bool) : exec (.discardedFrame f voided) s =
    .next (if voided then frameEnded s else actOnFrame f (frameEnded s)) :=
  congrArg Host.Outcome.next (if_pos ((canTake_iff s).2 h))

theorem exec_ownNumberFrameTaken (h : FrameReady s) (k d : BitVec 4) (payload : List Byte) :
    exec (.ownNumberFrameTaken k d payload) s = .next (raiseDuplicate (frameEnded s)) :=
  congrArg Host.Outcome.next (if_pos ((canTake_iff s).2 h))

theorem actOnFrame_discard {f : RxFrame} (h : frameAction s.station.number f = .discard) : actOnFrame f s = s := by
  cases hs : stationOf f.source <;> simp only [actOnFrame, h]

end

/-- Settles O54: the duplicate condition is raised once, and a frame that no row takes only ends. -/
theorem ownNumberRaisesTheDuplicateAndOthersAreDiscarded : Obligations.OwnNumberRaisesTheDuplicateAndOthersAreDiscarded := by
  unfold Obligations.OwnNumberRaisesTheDuplicateAndOthersAreDiscarded
  intro s h
  refine ⟨fun k d payload hd => ?_, fun hd => ?_, fun f => exec_discardedFrame h f true, fun f hs hf => ?_⟩
  · rw [exec_ownNumberFrameTaken h]
    exact congrArg Host.Outcome.next (if_pos hd)
  · obtain ⟨w, u, t, hw, h0, h1, hx⟩ := raiseDuplicate_taken (s := frameEnded s) rfl hd
    exact ⟨w, u, t, hw, h0, h1, fun k d payload => by rw [exec_ownNumberFrameTaken h, hx]⟩
  · rw [exec_discardedFrame h]
    exact congrArg Host.Outcome.next (actOnFrame_discard (frameAction_discard hs hf))

end Sys2Proof.Machine
end

section
/-! PROOF of O39: SETUP stores each item in its range. -/

namespace Sys2Proof.Machine

open Sys2Proof

theorem clamp_eq {lo hi : Nat} (h : lo ≤ hi) (n : Nat) : clamp lo hi n = max lo (min hi n) := by
  unfold clamp
  split_ifs <;> omega

theorem bne_eq_decide (a b : Nat) : (a != b) = decide (a ≠ b) := by
  by_cases h : a = b <;> simp [h]

section
variable {via : Via} {s : State} {item : Byte} {ops : List Byte}

/-- A SETUP in SETUP with all its bytes, a listed item, and the port or reach its item names, passes the checks of R173. -/
theorem setup_passes (hv : via.broadcast = false) (hp : s.station.phase = .setup) (hi : item.toNat ≤ 27)
    (hlen : setupBytes item ≤ 2 + ops.length) (hport : 1 ≤ item.toNat → item.toNat ≤ 6 → (byteAt ops 0).toNat < 12)
    (hreach : item = 19 → (reachOf (byteAt ops 0)).isSome = true) :
    firstFailure via.broadcast ([6, item] ++ ops) s.station = none := by
  have hneed : ¬ops.length + 1 + 1 < setupBytes item := by omega
  have hcoded : codedOk (6#8 :: item :: ops) = true := by
    by_cases h19 : item = 19#8
    · simpa [codedOk, byteAt, h19] using hreach h19
    · simp [codedOk, byteAt, hi, h19]
  have hportOk : portOk (6#8 :: item :: ops) = true := by
    by_cases h6 : 1 ≤ item.toNat ∧ item.toNat ≤ 6
    · simpa [portOk, portOperand, byteAt, h6] using hport h6.1 h6.2
    · simp [portOk, portOperand, byteAt, h6]
  change firstFailure via.broadcast (6#8 :: item :: ops) s.station = none
  simp [firstFailure, kindListed, bytesNeeded, destinationOk, phaseRefusal, gradeOk, pageOk, byteAt, hv, hp, hneed, hcoded, hportOk]

/-- The item is written and the answer tells whether its value was changed (R187). -/
theorem exec_setup (h : RequestReady s) (hf : firstFailure via.broadcast ([6, item] ++ ops ++ via.extra) s.station = none)
    {su : Setup} {adjusted : Bool} (hstore : storeItem item.toNat (ops ++ via.extra) s.setup = some (su, adjusted)) :
    exec (.setup via item ops) s = .next (reply 6 (.accepted adjusted) { frameEnded s with setup := su }) := by
  refine congrArg Host.Outcome.next (takeRequest_answered h _ _ _ hf ?_)
  have : storeItem item.toNat (ops ++ via.extra) (frameEnded s).setup = some (su, adjusted) := hstore
  simp only [serveSetup, this]
  rfl

/-- A one-byte item of Table 11-3, clamped to its range. -/
theorem exec_setup_one (h : RequestReady s) (hv : via.broadcast = false) (hp : s.station.phase = .setup) {n lo hi : Nat}
    {put : Setup → Nat → Setup} (hn : 6 < n) (hn27 : n ≤ 27) (h19 : n ≠ 19) (hb : setupBytes (byteOf n) ≤ 3) (hlo : lo ≤ hi)
    (hstore : ∀ (rest : List Byte) (v : Byte), storeItem n (v :: rest) s.setup = some (clampItem lo hi v.toNat (put s.setup))) (v : Byte) :
    exec (.setup via (byteOf n) [v]) s = .next (reply 6 (.accepted (decide (max lo (min hi v.toNat) ≠ v.toNat)))
      { frameEnded s with setup := put s.setup (max lo (min hi v.toNat)) }) := by
  have hcode : (byteOf n).toNat = n := byteOf_toNat (by omega)
  rw [← clamp_eq hlo, ← bne_eq_decide]
  refine exec_setup h (setup_passes (ops := [v] ++ via.extra) hv hp (by omega) ?_ (fun _ => by omega) (fun k => ?_)) ?_
  · simp only [List.length_append, List.length_singleton]; omega
  · rw [k] at hcode; exact absurd hcode.symm h19
  · rw [hcode]; exact hstore _ v

/-- A two-byte item of Table 11-3, clamped to its range. -/
theorem exec_setup_two (h : RequestReady s) (hv : via.broadcast = false) (hp : s.station.phase = .setup) {n lo hi : Nat}
    {put : Setup → Nat → Setup} (hn : 6 < n) (hn27 : n ≤ 27) (h19 : n ≠ 19) (hb : setupBytes (byteOf n) ≤ 4) (hlo : lo ≤ hi)
    (hstore : ∀ (rest : List Byte) (a b : Byte),
      storeItem n (a :: b :: rest) s.setup = some (clampItem lo hi (256 * a.toNat + b.toNat) (put s.setup))) (a b : Byte) :
    exec (.setup via (byteOf n) [a, b]) s =
      .next (reply 6 (.accepted (decide (max lo (min hi (256 * a.toNat + b.toNat)) ≠ 256 * a.toNat + b.toNat)))
        { frameEnded s with setup := put s.setup (max lo (min hi (256 * a.toNat + b.toNat))) }) := by
  have hcode : (byteOf n).toNat = n := byteOf_toNat (by omega)
  rw [← clamp_eq hlo, ← bne_eq_decide]
  refine exec_setup h (setup_passes (ops := [a, b] ++ via.extra) hv hp (by omega) ?_ (fun _ => by omega) (fun k => ?_)) ?_
  · simp only [List.length_append, List.length_cons, List.length_nil]; omega
  · rw [k] at hcode; exact absurd hcode.symm h19
  · rw [hcode]; exact hstore _ a b

/-- A per-port item names its port. -/
theorem exec_setup_port (h : RequestReady s) (hv : via.broadcast = false) (hp : s.station.phase = .setup) {n : Nat}
    (hn : n = 5 ∨ n = 6) (p : PortId) (v : Byte) {su : Setup}
    (hstore : storeItem n (byteOf p.val :: v :: via.extra) s.setup = some (su, false)) :
    exec (.setup via (byteOf n) [byteOf p.val, v]) s = .next (reply 6 (.accepted false) { frameEnded s with setup := su }) := by
  have hcode : (byteOf n).toNat = n := byteOf_toNat (by omega)
  refine exec_setup h (setup_passes (ops := [byteOf p.val, v] ++ via.extra) hv hp (by omega) ?_
    (fun _ _ => byteOf_port_lt p) (fun k => ?_)) (by rw [hcode]; exact hstore)
  · have : setupBytes (byteOf n) ≤ 4 := by rcases hn with rfl | rfl <;> decide
    simp only [List.length_append, List.length_cons, List.length_nil]; omega
  · rw [k] at hcode
    simp at hcode
    omega

end

/-! ### Segment entries (R187) -/

/-- The boundaries that the walk raises. -/
theorem raiseTable_eq (w : Vector Segment 4) {b1 b2 b3 : Nat} (h1 : b1 = max w[0].boundary w[1].boundary)
    (h2 : b2 = max b1 w[2].boundary) (h3 : b3 = max b2 w[3].boundary) : raiseTable w =
      ⟨#[w[0], { w[1] with boundary := b1 }, { w[2] with boundary := b2 }, { w[3] with boundary := b3 }], rfl⟩ := by
  subst h1 h2 h3
  rfl

/-- The table stays as written exactly when no boundary is raised. -/
theorem raiseTable_ne_iff (w : Vector Segment 4) {b1 b2 b3 : Nat} (h1 : b1 = max w[0].boundary w[1].boundary)
    (h2 : b2 = max b1 w[2].boundary) (h3 : b3 = max b2 w[3].boundary) :
    raiseTable w ≠ w ↔ (b1 ≠ w[1].boundary ∨ b2 ≠ w[2].boundary ∨ b3 ≠ w[3].boundary) := by
  rw [raiseTable_eq w h1 h2 h3, ← not_iff_not, not_not, not_or, not_or, not_not, not_not, not_not]
  constructor
  · intro h
    exact ⟨congrArg (fun v : Vector Segment 4 => v[1].boundary) h, congrArg (fun v : Vector Segment 4 => v[2].boundary) h,
      congrArg (fun v : Vector Segment 4 => v[3].boundary) h⟩
  · rintro ⟨e1, e2, e3⟩
    refine Vector.ext fun i hi => ?_
    match i with
    | 0 => rfl
    | 1 => rw [e1]; rfl
    | 2 => rw [e2]; rfl
    | 3 => rw [e3]; rfl

theorem raiseTable_bne (w : Vector Segment 4) {b1 b2 b3 : Nat} (h1 : b1 = max w[0].boundary w[1].boundary)
    (h2 : b2 = max b1 w[2].boundary) (h3 : b3 = max b2 w[3].boundary) :
    (raiseTable w != w) = decide (b1 ≠ w[1].boundary ∨ b2 ≠ w[2].boundary ∨ b3 ≠ w[3].boundary) := by
  rw [Bool.eq_iff_iff, bne_iff_ne, decide_eq_true_iff]
  exact raiseTable_ne_iff w h1 h2 h3

theorem segmentOf_bytes (hi lo : Byte) : segmentOf (twoByteOf hi lo) =
    ⟨(256 * hi.toNat + lo.toNat) / 16, (256 * hi.toNat + lo.toNat) / 2 % 8, lo.toNat % 2 == 1⟩ := by
  have h1 : (256 * hi.toNat + lo.toNat) / 16 % 4096 = (256 * hi.toNat + lo.toNat) / 16 := Nat.mod_eq_of_lt (by omega)
  have h2 : (256 * hi.toNat + lo.toNat) % 2 = lo.toNat % 2 := by omega
  rw [segmentOf, twoByteOf, h1, h2]

/-- A segment entry is written and the table raised (R187). -/
theorem exec_setupSegmentEntry {via : Via} {s : State} (h : RequestReady s) (hv : via.broadcast = false)
    (hp : s.station.phase = .setup) (i : Fin 4) (p : PortId) (hi lo : Byte) {w : Vector Segment 4}
    (hw : w = (s.setup.segments[p.val]).set i.val (segmentOf (twoByteOf hi lo))) :
    exec (.setupSegmentEntry via i (byteOf p.val) hi lo) s = .next (reply 6 (.accepted (raiseTable w != w))
      { frameEnded s with setup := { s.setup with segments := s.setup.segments.set p.val (raiseTable w) } }) := by
  have hcode : (byteOf (1 + i.val)).toNat = 1 + i.val := byteOf_toNat (by omega)
  have hbytes : setupBytes (byteOf (1 + i.val)) ≤ 5 := by
    unfold setupBytes
    dsimp only
    split_ifs <;> omega
  subst hw
  refine congrArg Host.Outcome.next (takeRequest_answered h _ _ _ (setup_passes (ops := [byteOf p.val, hi, lo] ++ via.extra) hv hp
    (by omega) ?_ (fun _ _ => byteOf_port_lt p) (fun k => ?_)) ?_)
  · simp only [List.length_append, List.length_cons, List.length_nil]; omega
  · rw [k] at hcode
    simp at hcode
    omega
  · rw [serveSegment, withPort_byteOf]
    rfl

/-- Settles O39: each item of Table 11-3 by the number of its bytes, and the segment entries. -/
theorem setupStoresItsItemsInTheirRanges : Obligations.SetupStoresItsItemsInTheirRanges := by
  unfold Obligations.SetupStoresItsItemsInTheirRanges
  refine ⟨fun via s h hv hp => ⟨fun item lo hi put hmem => ?_, fun item lo hi put hmem => ?_, fun cls a b => ?_, fun v => ?_,
    fun p v => ⟨?_, ?_⟩, fun v r hr => ?_, fun v => ?_, fun v => ?_⟩, fun via i p a b s h hv hp => ?_⟩
  · obtain ⟨h6, h27, h19, hb, hlo, hstore⟩ : 6 < item ∧ item ≤ 27 ∧ item ≠ 19 ∧ setupBytes (byteOf item) ≤ 3 ∧ lo ≤ hi ∧
        ∀ (rest : List Byte) (v : Byte), storeItem item (v :: rest) s.setup = some (clampItem lo hi v.toNat (put s.setup)) := by
      simp only [List.mem_cons, List.not_mem_nil, or_false, Prod.mk.injEq] at hmem
      rcases hmem with ⟨rfl, rfl, rfl, rfl⟩ | ⟨rfl, rfl, rfl, rfl⟩ | ⟨rfl, rfl, rfl, rfl⟩ | ⟨rfl, rfl, rfl, rfl⟩ |
        ⟨rfl, rfl, rfl, rfl⟩ | ⟨rfl, rfl, rfl, rfl⟩ | ⟨rfl, rfl, rfl, rfl⟩ | ⟨rfl, rfl, rfl, rfl⟩ | ⟨rfl, rfl, rfl, rfl⟩ |
        ⟨rfl, rfl, rfl, rfl⟩ | ⟨rfl, rfl, rfl, rfl⟩ | ⟨rfl, rfl, rfl, rfl⟩ | ⟨rfl, rfl, rfl, rfl⟩ | ⟨rfl, rfl, rfl, rfl⟩
      all_goals exact ⟨by decide, by decide, by decide, by decide, by decide, fun _ _ => rfl⟩
    exact exec_setup_one h hv hp h6 h27 h19 hb hlo hstore
  · obtain ⟨h6, h27, h19, hb, hlo, hstore⟩ : 6 < item ∧ item ≤ 27 ∧ item ≠ 19 ∧ setupBytes (byteOf item) ≤ 4 ∧ lo ≤ hi ∧
        ∀ (rest : List Byte) (a b : Byte),
          storeItem item (a :: b :: rest) s.setup = some (clampItem lo hi (256 * a.toNat + b.toNat) (put s.setup)) := by
      simp only [List.mem_cons, List.not_mem_nil, or_false, Prod.mk.injEq] at hmem
      rcases hmem with ⟨rfl, rfl, rfl, rfl⟩ | ⟨rfl, rfl, rfl, rfl⟩ | ⟨rfl, rfl, rfl, rfl⟩
      all_goals exact ⟨by decide, by decide, by decide, by decide, by decide, fun _ _ _ => rfl⟩
    exact exec_setup_two h hv hp h6 h27 h19 hb hlo hstore
  · have hstored : storeDelay cls.toNat (twoByteOf a b) s.setup =
        ({ s.setup with delay := s.setup.delay.setIfInBounds (min 7 cls.toNat) (max 3500 (min 7000 (256 * a.toNat + b.toNat))) },
          decide (7 < cls.toNat) || decide (max 3500 (min 7000 (256 * a.toNat + b.toNat)) ≠ 256 * a.toNat + b.toNat)) := by
      have hcls : (min 7 cls.toNat ≠ cls.toNat) ↔ 7 < cls.toNat := by omega
      simp only [storeDelay, twoByteOf, clamp_eq (show 0 ≤ 7 by decide), clamp_eq (show 3500 ≤ 7000 by decide), bne_eq_decide,
        Nat.zero_max, hcls]
    refine exec_setup h (setup_passes (ops := [cls, a, b] ++ via.extra) hv hp (by decide) ?_ (fun k => absurd k (by decide))
      (fun k => absurd k (by decide))) (congrArg some hstored)
    rw [show setupBytes 0 = 5 from rfl]; simp; omega
  · have hstored : storeWindow v.toNat s.setup = ({ s.setup with window := max 8 (min 128 v.toNat) / 8 * 8 },
        decide (max 8 (min 128 v.toNat) / 8 * 8 ≠ v.toNat)) := by
      simp only [storeWindow, clamp_eq (show 8 ≤ 128 by decide), bne_eq_decide]
    refine exec_setup h (setup_passes (ops := [v] ++ via.extra) hv hp (by decide) ?_ (fun _ k => absurd k (by decide))
      (fun k => absurd k (by decide))) (congrArg some hstored)
    rw [show setupBytes 13 = 3 from rfl]; simp; omega
  · exact exec_setup_port h hv hp (.inl rfl) p v (by simp [storeItem, byteAt, storeCriteria, criteriaOf])
  · exact exec_setup_port h hv hp (.inr rfl) p v (by simp [storeItem, byteAt, storeDiagnose])
  · refine exec_setup h (setup_passes (ops := [v] ++ via.extra) hv hp (by decide) ?_ (fun _ k => absurd k (by decide)) (fun _ => ?_)) ?_
    · rw [show setupBytes 19 = 3 from rfl]; simp; omega
    · exact Option.isSome_of_eq_some hr
    · exact congrArg (Option.map _) hr
  · refine exec_setup h (setup_passes (ops := [v] ++ via.extra) hv hp (by decide) ?_ (fun _ k => absurd k (by decide))
      (fun k => absurd k (by decide))) rfl
    rw [show setupBytes 20 = 3 from rfl]; simp; omega
  · refine exec_setup h (setup_passes (ops := [v] ++ via.extra) hv hp (by decide) ?_ (fun _ k => absurd k (by decide))
      (fun k => absurd k (by decide))) rfl
    rw [show setupBytes 21 = 3 from rfl]; simp; omega
  · refine ⟨_, rfl, _, _, _, rfl, rfl, rfl, ?_⟩
    rw [← segmentOf_bytes, exec_setupSegmentEntry h hv hp i p a b rfl, raiseTable_bne _ rfl rfl rfl, raiseTable_eq _ rfl rfl rfl]

end Sys2Proof.Machine
end

section
/-! PROOF of O40: the ways through the start of the station. -/

namespace Sys2Proof.Machine

open Sys2Proof

/-! ### Entry to RUN (R5, R83, R188) -/

theorem enterDisabled_spec (a : Port) : (enterDisabled a).train.state = .disabled ∧
    (enterDisabled a).train.holds = ⟨false, false, false⟩ ∧ AttemptCleared (enterDisabled a).train ∧
    SettingsKept a.train (enterDisabled a).train ∧ CountsKept a.train (enterDisabled a).train ∧
    RestOfPortKept a (enterDisabled a) :=
  ⟨rfl, rfl, ⟨rfl, rfl, rfl, rfl, rfl⟩, ⟨rfl, rfl, rfl, rfl, rfl, rfl, rfl, rfl⟩, ⟨rfl, rfl, rfl, rfl, rfl⟩, ⟨rfl, rfl, rfl, rfl⟩⟩

/-- The state in which the station has entered RUN, before the arbiter acts. -/
def inRun (s : State) : State :=
  { s.mapPorts (portAtRun s) with
    station := { s.station with phase := .run, listen := Timer.off, calibrating := Timer.off, window := Timer.off }
    budget := { s.budget with window := Timer.start (4000 * s.setup.budgetWindow) } }

theorem enterRun_eq (s : State) : enterRun s = react (inRun s) := rfl

theorem inRun_entered (s : State) : RunEntered s (inRun s) := by
  refine ⟨rfl, rfl, rfl, fun p => ?_⟩
  have hport : (inRun s).port p = portAtRun s p (s.port p) := State.mapPorts_port s (portAtRun s) p
  rw [hport, portAtRun]
  by_cases h : s.unserved p = true ∨ (s.port p).train.consoleDisabled = true
  · rw [if_pos h, if_pos (Bool.or_eq_true_iff.2 h)]
    exact enterDisabled_spec _
  · rw [if_neg h, if_neg (fun k => h (Bool.or_eq_true_iff.1 k))]
    exact portReEntry_spec _ _

/-! ### LISTEN ends (R184) -/

theorem placeRejoin_none {s : State} (c : StartCause) (h : ∀ f ∈ s.line.list, f.kind ≠ .rejoin) :
    placeRejoin c s = placeFrame ⟨.rejoin, [startCauseCode c], none, false⟩ s := by
  rw [placeRejoin, if_pos (countKind_eq_zero.2 h)]
  rfl

/-- The state at the end of LISTEN, its REJOIN placed. -/
def listenEnded (s : State) : State :=
  placeFrame ⟨.rejoin, [startCauseCode s.station.cause], none, false⟩ { s with station := { s.station with window := Timer.off } }

theorem exec_listenTimerExpiry {s : State} (hp : s.station.phase = .listen) (hr : ∀ f ∈ s.line.list, f.kind ≠ .rejoin) :
    exec .listenTimerExpiry s = .next (if s.station.calibration.isNone then enterCalibrating (listenEnded s)
      else if s.station.locked then enterRun (listenEnded s) else enterSetup (listenEnded s)) := by
  refine congrArg Host.Outcome.next ((if_pos hp).trans ?_)
  rw [placeRejoin_none (s := { s with station := { s.station with window := Timer.off } }) _ hr]
  rfl

/-! ### CALIBRATING (R185) -/

theorem populated_zero (pop : Population) : populated pop 0 = true := by
  cases pop <;> rfl

/-- At its start calibration has the first port on internal termination. -/
theorem enterCalibrating_port (s : State) (p : PortId) : (enterCalibrating s).port p =
    { s.port p with front := { (s.port p).front with terminated := decide (p = 0) } } := by
  have hunder : ∀ st : Station, st.phase = .calibrating → st.calibrating.elapsed = 0 →
      underCalibration st p = decide (p = 0) := fun st h1 h2 => by
    by_cases h0 : p = 0
    · simp [underCalibration, h1, h2, h0, populated_zero]
    · have : (0 : Nat) ≠ p.val := fun k => h0 (Fin.ext k.symm)
      simp [underCalibration, h1, h2, h0, this]
  rw [enterCalibrating, switchTermination, State.mapPorts_port, hunder _ rfl rfl]
  rfl

theorem ofPorts_get {α : Type} (f : PortId → α) (p : PortId) : (ofPorts f)[p.val] = f p := by
  fin_cases p <;> rfl

theorem PortSet.has_ofTest (f : PortId → Bool) (p : PortId) : (PortSet.ofTest f).has p = f p := by
  fin_cases p <;> rfl

theorem PortSet.eq_none_iff (v : PortSet) : v = PortSet.none ↔ ∀ p, v.has p = false := by
  constructor
  · rintro rfl p
    fin_cases p <;> rfl
  · intro h
    refine Vector.ext fun i hi => (h ⟨i, hi⟩).trans ?_
    have hnone : ∀ p, PortSet.none.has p = false := by decide
    exact (hnone ⟨i, hi⟩).symm

/-- The state with the data of a calibration. -/
def calibrationStored (input : List CalibrationInput) (s : State) : State := storeCalibration input (toLineInterface s)

section
variable (input : List CalibrationInput) (s : State)

theorem calibrationStored_faults (p : PortId) :
    (calibrationStored input s).station.calFaults.has p = (calibrated s.station.population input p).any calFaulty := by
  have h : (calibrationStored input s).station.calFaults =
      PortSet.ofTest (fun p => ((ofPorts (calibrated s.station.population input))[p.val]).any calFaulty) := rfl
  rw [h, PortSet.has_ofTest, ofPorts_get]

theorem calibrationStored_port (p : PortId) : (calibrationStored input s).port p =
    { s.port p with front := { (s.port p).front with terminated := false } } :=
  State.mapPorts_port s (fun _ pt => { pt with front.terminated := false }) p

theorem exec_calibrationDone (hp : s.station.phase = .calibrating) : exec (.calibrationDone input) s =
    .next (if s.station.locked then enterRun (raiseCalFault (calibrationStored input s))
      else enterSetup (raiseCalFault (calibrationStored input s))) :=
  congrArg Host.Outcome.next (if_pos hp)

end

theorem raiseCalFault_none {s : State} (h : ∀ p, s.station.calFaults.has p = false) : raiseCalFault s = s :=
  if_pos ((PortSet.eq_none_iff _).2 h)

theorem raiseCalFault_some {s : State} (h : ∃ p, s.station.calFaults.has p = true) : raiseCalFault s = raise .calFault s := by
  refine if_neg fun k => ?_
  obtain ⟨p, hp⟩ := h
  rw [(PortSet.eq_none_iff _).1 k p] at hp
  cases hp

/-- Raising CAL_FAULT touches the summary and the transmit list alone. -/
theorem raiseCalFault_eq (s : State) : raiseCalFault s = { s with
    summary := if ∃ p, s.station.calFaults.has p = true then s.summary.add .calFault else s.summary
    line := (raiseCalFault s).line } := by
  by_cases h : ∃ p, s.station.calFaults.has p = true
  · rw [if_pos h, raiseCalFault_some h, raise_eq]
  · rw [if_neg h, raiseCalFault_none fun p => by simpa using fun k => h ⟨p, k⟩]

/-! ### LOCK and CALIBRATE -/

section
variable {via : Via} {s : State}

theorem exec_lock (h : RequestReady s) (hp : s.station.phase = .setup ∨ s.station.locked = true) : exec (.lock via) s =
    .next (reply 7 (.accepted false) (if s.station.phase = .setup then
      enterRun { frameEnded s with station := { s.station with locked := true } } else frameEnded s)) := by
  have hf : firstFailure via.broadcast ([7] ++ via.extra) s.station = none := by
    simp [firstFailure, byteAt, kindListed, bytesNeeded, destinationOk, phaseRefusal, codedOk, gradeOk, portOk, portOperand, pageOk, hp]
  refine congrArg Host.Outcome.next (takeRequest_answered h _ _ _ hf ?_)
  by_cases h1 : s.station.phase = .setup
  · rw [if_pos h1]; exact if_pos h1
  · rw [if_neg h1]; exact if_neg h1

theorem exec_calibrate (h : RequestReady s) (hv : via.broadcast = false) (hp : s.station.phase = .setup) : exec (.calibrate via) s =
    .next (reply 8 (.accepted false) (enterCalibrating (frameEnded s))) := by
  have hf : firstFailure via.broadcast ([8] ++ via.extra) s.station = none := by
    simp [firstFailure, byteAt, kindListed, bytesNeeded, destinationOk, hv, phaseRefusal, codedOk, gradeOk, portOk, portOperand, pageOk,
      hp]
  exact congrArg Host.Outcome.next (takeRequest_answered h _ _ _ hf rfl)

end

/-- Settles O40: each way by the phase entered. -/
theorem stationPhasesFollowTheStartSequence : Obligations.StationPhasesFollowTheStartSequence := by
  unfold Obligations.StationPhasesFollowTheStartSequence
  refine ⟨⟨fun via s h hp => ?_, fun via s h hp hl => ?_, fun s hp => ?_, fun s hp hc hl hr => ?_, fun input s hp hl => ?_⟩,
    fun s hp hr => ⟨fun hc => ?_, fun hc hl => ?_⟩, fun via s h hv hp => ?_, fun input s hp hl => ?_⟩
  · rw [exec_lock h (.inl hp), if_pos hp]
    exact ⟨_, rfl, inRun_entered _⟩
  · rw [exec_lock h (.inr hl), if_neg hp]
  · exact ⟨_, congrArg Host.Outcome.next (if_pos hp), inRun_entered _⟩
  · rw [exec_listenTimerExpiry hp hr, if_neg (by simpa using Option.isSome_iff_ne_none.1 hc), if_pos hl]
    exact ⟨_, rfl, inRun_entered (listenEnded s)⟩
  · rw [exec_calibrationDone input s hp, if_pos hl]
    refine ⟨_, calibrationStored input s, rfl, fun hnone => ?_, fun hsome => ?_, calibrationStored_port input s,
      calibrationStored_faults input s, rfl⟩
    · rw [raiseCalFault_none fun p => (calibrationStored_faults input s p).trans (hnone p)]
      exact inRun_entered _
    · obtain ⟨p, hf⟩ := hsome
      rw [raiseCalFault_some ⟨p, (calibrationStored_faults input s p).trans hf⟩]
      exact inRun_entered _
  · rw [exec_listenTimerExpiry hp hr, if_pos (by rw [hc]; rfl)]
    refine ⟨_, rfl, enterCalibrating_port _, ?_⟩
    dsimp only
    rw [hc]
    rfl
  · rw [exec_listenTimerExpiry hp hr, if_neg (by simpa using Option.isSome_iff_ne_none.1 hc), if_neg (by rw [hl]; decide)]
    rfl
  · exact ⟨_, exec_calibrate h hv hp, enterCalibrating_port _, rfl⟩
  · rw [exec_calibrationDone input s hp, if_neg (by rw [hl]; decide), raiseCalFault_eq]
    exact ⟨_, rfl, rfl, hl, rfl, calibrationStored_faults input s, fun p => if_congr decide_eq_true_iff rfl rfl,
      rfl, rfl, rfl, calibrationStored_port input s,
      rfl, rfl, rfl⟩

end Sys2Proof.Machine
end

section
/-! PROOF of O41: the eight checks in their order. -/

namespace Sys2Proof.Machine

open Sys2Proof

/-! ### Each check in the terms of the tables (R173) -/

section
variable {payload : List Byte}

theorem codeAt_eq (i : Nat) : codeAt payload i = (byteAt payload i).toNat := rfl

theorem reachOf_isSome (b : Byte) : (reachOf b).isSome = decide (b.toNat ≤ 2) := by
  revert b; decide

theorem rolePrefOf_isSome (b : Byte) : (rolePrefOf b).isSome = decide (b.toNat ≤ 2) := by
  revert b; decide

theorem pairOf_isSome (b : Byte) : (pairOf b).isSome = decide (b.toNat ≤ 3) := by
  revert b; decide

theorem kindListed_iff : kindListed (byteAt payload 0) = false ↔ codeAt payload 0 = 0 ∨ 9 < codeAt payload 0 := by
  rw [kindListed, codeAt_eq, Bool.and_eq_false_iff, decide_eq_false_iff_not, decide_eq_false_iff_not]
  omega

theorem destinationOk_iff (b : Bool) : destinationOk b (byteAt payload 0) = false ↔
    b = true ∧ codeAt payload 0 ≠ 3 ∧ codeAt payload 0 ≠ 7 := by
  simp only [destinationOk, codeAt_eq, Bool.or_eq_false_iff, Bool.not_eq_false', beq_eq_false_iff_ne, and_assoc]
  bv_omega

theorem codedOk_iff : codedOk payload = false ↔ CodeUnlisted payload := by
  simp only [codedOk, CodeUnlisted, codeAt_eq, reachOf_isSome, rolePrefOf_isSome, pairOf_isSome]
  split_ifs
  · simp only [decide_eq_false_iff_not]; bv_omega
  · simp only [Bool.and_eq_false_iff, Bool.or_eq_false_iff, decide_eq_false_iff_not, bne_eq_false_iff_eq]; bv_omega
  · simp only [Bool.and_eq_false_iff, Bool.or_eq_false_iff, decide_eq_false_iff_not, bne_eq_false_iff_eq]; bv_omega
  · simp only [Bool.and_eq_false_iff, Bool.or_eq_false_iff, decide_eq_false_iff_not, bne_eq_false_iff_eq]; bv_omega
  · simp only [decide_eq_false_iff_not]; bv_omega
  · refine iff_of_false id ?_; bv_omega

theorem gradeOk_iff : gradeOk payload = false ↔
    codeAt payload 0 = 4 ∧ codeAt payload 2 = 2 ∧ codeAt payload 3 ≠ 1 ∧ codeAt payload 3 ≠ 2 := by
  simp only [gradeOk, codeAt_eq]
  split_ifs
  · simp only [Bool.or_eq_false_iff, beq_eq_false_iff_ne]; bv_omega
  · refine iff_of_false id ?_; bv_omega

theorem pageOk_iff : pageOk payload = false ↔ PageBeyond payload := by
  simp only [pageOk, PageBeyond, codeAt_eq]
  split_ifs
  · simp only [decide_eq_false_iff_not]; bv_omega
  · simp only [decide_eq_false_iff_not]; bv_omega
  · simp only [decide_eq_false_iff_not]; bv_omega
  · simp only [decide_eq_false_iff_not]; bv_omega
  · simp only [decide_eq_false_iff_not]; bv_omega
  · refine iff_of_false id ?_; bv_omega
  · refine iff_of_false id ?_; bv_omega

/-- Check 7 reads the port operand, where the request has one. -/
theorem portOk_of {o : Option Byte} (h : portOperand payload = o) : portOk payload = false ↔ ∃ b, o = some b ∧ 11 < b.toNat := by
  subst h
  cases h : portOperand payload with
  | none => simp [portOk, h]
  | some b => simp [portOk, h]; omega

theorem portOk_iff : portOk payload = false ↔ PortBeyond payload := by
  have hflag : (byteAt payload 2).getLsbD 0 = true ↔ (byteAt payload 2).toNat % 2 = 1 := by
    generalize byteAt payload 2 = b; revert b; decide
  rw [portOk_of rfl, portOperand]
  have hset : ∀ n : Nat, (n ∈ [1, 2, 3, 4, 5] ↔ 1 ≤ n ∧ n ≤ 5) ∧ (n ∈ [1, 2, 3, 4, 5, 6] ↔ 1 ≤ n ∧ n ≤ 6) := fun n => by
    simp only [List.mem_cons, List.not_mem_nil, or_false]; omega
  simp only [PortBeyond, hflag, hset, codeAt_eq]
  split_ifs
  all_goals simp only [Option.some.injEq, exists_eq_left', false_and, exists_false, false_iff]
  all_goals bv_omega

/-- Check 2 fails only where bytes are missing; `short_of_bytesMissing` is the other direction. -/
theorem bytesMissing_of_short (h : payload.length < bytesNeeded payload) : BytesMissing payload := by
  by_cases hne : payload = []
  · exact .inl hne
  have hlen : 0 < payload.length := List.length_pos_iff.2 hne
  refine .inr ?_
  have code : ∀ {i : Nat} {k : Byte}, byteAt payload i = k → codeAt payload i = k.toNat := fun h => congrArg BitVec.toNat h
  simp only [bytesNeeded] at h
  split_ifs at h with h12 h39 h4 hs h5 hq h6 hi
  · exact .inl ⟨h12.imp code code, h⟩
  · exact .inr (.inl ⟨h39.imp code code, h⟩)
  · exact .inr (.inr (.inl ⟨code h4, .inl h⟩))
  · refine .inr (.inr (.inl ⟨code h4, ?_⟩))
    unfold trainBytes at h
    split_ifs at h with h2 h3
    · exact .inr (.inl ⟨code h2, h⟩)
    · exact .inr (.inr ⟨code h3, h⟩)
    · exact .inl h
  · exact .inr (.inr (.inr (.inl ⟨code h5, .inl h⟩)))
  · refine .inr (.inr (.inr (.inl ⟨code h5, ?_⟩)))
    unfold queryBytes at h
    simp only [codeAt_eq, List.mem_cons, List.not_mem_nil, or_false]
    split_ifs at h <;> bv_omega
  · exact .inr (.inr (.inr (.inr ⟨code h6, .inl h⟩)))
  · refine .inr (.inr (.inr (.inr ⟨code h6, ?_⟩)))
    simp only [setupBytes] at h
    simp only [codeAt_eq, List.mem_cons, List.not_mem_nil, or_false]
    split_ifs at h <;> omega
  · omega

theorem bytesMissing_iff : payload.length < bytesNeeded payload ↔ BytesMissing payload :=
  ⟨bytesMissing_of_short, short_of_bytesMissing⟩

end

/-! ### The first check that fails -/

/-- What the first of the rows that holds answers, if one does. -/
inductive FirstOf : List (Prop × Reason) → Option Reason → Prop
  | nil : FirstOf [] none
  | found {p : Prop} {r : Reason} {rest : List (Prop × Reason)} : p → FirstOf ((p, r) :: rest) (some r)
  | passed {p : Prop} {r : Reason} {rest : List (Prop × Reason)} {o : Option Reason} :
      ¬p → FirstOf rest o → FirstOf ((p, r) :: rest) o

theorem FirstOf.ite {p c : Prop} [Decidable c] {r : Reason} {rest : List (Prop × Reason)} {o : Option Reason} (hpc : c ↔ p)
    (h : FirstOf rest o) : FirstOf ((p, r) :: rest) (if c then some r else o) := by
  by_cases hc : c
  · rw [if_pos hc]; exact .found (hpc.1 hc)
  · rw [if_neg hc]; exact .passed (fun k => hc (hpc.2 k)) h

theorem FirstOf.none_iff {rows : List (Prop × Reason)} {o : Option Reason} (h : FirstOf rows o) :
    o = none ↔ ∀ x ∈ rows, ¬x.1 := by
  induction h with
  | nil => simp
  | found hp => simpa using fun k => absurd hp k
  | passed hp _ ih => simp [ih, hp]

/-- The row that answers, with the rows before it that do not hold. -/
theorem FirstOf.split {rows : List (Prop × Reason)} {r : Reason} {o : Option Reason} (h : FirstOf rows o) (ho : o = some r) :
    ∃ before failed after, rows = before ++ (failed, r) :: after ∧ failed ∧ ∀ x ∈ before, ¬x.1 := by
  induction h with
  | nil => cases ho
  | @found p _ rest hp => cases ho; exact ⟨[], p, rest, rfl, hp, by simp⟩
  | @passed p r' _ _ hp _ ih =>
    obtain ⟨before, failed, after, rfl, hf, hb⟩ := ih ho
    exact ⟨(p, r') :: before, failed, after, rfl, hf, List.forall_mem_cons.2 ⟨hp, hb⟩⟩

theorem FirstOf.of_split {r : Reason} {failed : Prop} {after : List (Prop × Reason)} (hf : failed) (before : List (Prop × Reason)) :
    ∀ {o : Option Reason}, FirstOf (before ++ (failed, r) :: after) o → (∀ x ∈ before, ¬x.1) → o = some r := by
  induction before with
  | nil =>
    intro o h _
    cases h with
    | found => rfl
    | passed hp => exact absurd hf hp
  | cons x xs ih =>
    intro o h hb
    cases h with
    | found hp => exact absurd hp (hb _ (List.mem_cons_self ..))
    | passed _ h => exact ih h fun y hy => hb y (List.mem_cons_of_mem _ hy)

/-- Check 4 by Table 10-3, and the checks after it. -/
theorem FirstOf.phase {payload : List Byte} {st : Station} {rest : List (Prop × Reason)} {o : Option Reason} (h : FirstOf rest o) :
    FirstOf ((codeAt payload 0 ∈ [1, 2] ∧ st.phase ≠ .run, .notRunning) ::
      (codeAt payload 0 = 6 ∧ st.phase ≠ .setup ∧ st.locked = true, .locked) ::
      (codeAt payload 0 ∈ [6, 7] ∧ st.phase ≠ .setup ∧ st.locked = false, .notSetup) ::
      (codeAt payload 0 = 8 ∧ st.phase ≠ .setup, .notSetup) :: rest) ((phaseRefusal (byteAt payload 0) st).or o) := by
  have code : ∀ k : Byte, byteAt payload 0 = k ↔ codeAt payload 0 = k.toNat := fun k => BitVec.toNat_inj.symm
  have heq : (phaseRefusal (byteAt payload 0) st).or o =
      if codeAt payload 0 ∈ [1, 2] ∧ st.phase ≠ .run then some .notRunning
      else if codeAt payload 0 = 6 ∧ st.phase ≠ .setup ∧ st.locked = true then some .locked
      else if codeAt payload 0 ∈ [6, 7] ∧ st.phase ≠ .setup ∧ st.locked = false then some .notSetup
      else if codeAt payload 0 = 8 ∧ st.phase ≠ .setup then some .notSetup else o := by
    have h12 : byteAt payload 0 = 1 ∨ byteAt payload 0 = 2 ↔ codeAt payload 0 ∈ [1, 2] := by simp [code]
    have h67 : codeAt payload 0 ∈ [6, 7] ↔ byteAt payload 0 = 6 ∨ byteAt payload 0 = 7 := by simp [code]
    have h6 : codeAt payload 0 = 6 ↔ byteAt payload 0 = 6 := (code 6).symm
    have h8 : codeAt payload 0 = 8 ↔ byteAt payload 0 = 8 := (code 8).symm
    rw [phaseRefusal]
    simp only [h12, h67, h6, h8]
    grind
  rw [heq]
  exact .ite .rfl (.ite .rfl (.ite .rfl (.ite .rfl h)))

theorem firstFailure_rows (b : Bool) (payload : List Byte) (st : Station) :
    FirstOf (checkRows b payload st) (firstFailure b payload st) := by
  have heq : firstFailure b payload st =
      if kindListed (byteAt payload 0) = false then some .badKind
      else if payload.length < bytesNeeded payload then some .badKind
      else if destinationOk b (byteAt payload 0) = false then some .badKind
      else (phaseRefusal (byteAt payload 0) st).or (if codedOk payload = false then some .badKind
        else if gradeOk payload = false then some .badGrade else if portOk payload = false then some .badPort
        else if pageOk payload = false then some .badTarget else none) := by
    cases h : phaseRefusal (byteAt payload 0) st <;> simp only [firstFailure, h] <;> rfl
  rw [heq]
  exact .ite kindListed_iff (.ite bytesMissing_iff (.ite (destinationOk_iff b) (.phase
    (.ite codedOk_iff (.ite gradeOk_iff (.ite portOk_iff (.ite pageOk_iff .nil)))))))

/-! ### The answers -/

section
variable {c : Instr} {b : Bool} {payload : List Byte} {s : State}

/-- A request row that fails a check is answered with its refusal. -/
theorem exec_refused (hc : requestOf c = some (b, payload)) (hp : payload ≠ []) (h : RequestReady s) {r : Reason}
    (hf : firstFailure b payload s.station = some r) :
    exec c s = .next (reply (byteAt payload 0) (.refused r) (frameEnded s)) := by
  obtain ⟨serve, hx⟩ := exec_request hc hp s
  rw [hx, takeRequest_refused h b payload serve r hf]

/-- A payload that fails one of the first three checks is answered BAD_KIND. -/
theorem firstFailure_badKind {st : Station} (h : kindListed (byteAt payload 0) = false ∨ payload.length < bytesNeeded payload ∨
    destinationOk b (byteAt payload 0) = false) : firstFailure b payload st = some .badKind := by
  unfold firstFailure
  by_cases h1 : kindListed (byteAt payload 0) = false
  · rw [if_pos h1]
  · rw [if_neg h1]
    by_cases h2 : payload.length < bytesNeeded payload
    · rw [if_pos h2]
    · rw [if_neg h2, if_pos ((h.resolve_left h1).resolve_left h2)]

theorem exec_badKindRequest {kind : Byte} {rest : List Byte} (h : RequestReady s)
    (hf : kindListed kind = false ∨ rest.length + 1 < bytesNeeded (kind :: rest) ∨ destinationOk b kind = false) :
    exec (.badKindRequest b (kind :: rest)) s = .next (reply kind (.refused .badKind) (frameEnded s)) :=
  exec_refused (c := .badKindRequest b (kind :: rest)) (payload := kind :: rest) rfl (by simp) h (firstFailure_badKind hf)

end

/-- Settles O41: the first failing row answers, whatever the row's block would do. -/
theorem requestChecksAnswerInTheirOrder : Obligations.RequestChecksAnswerInTheirOrder := by
  unfold Obligations.RequestChecksAnswerInTheirOrder
  refine ⟨fun c b payload s hc hp => ⟨fun h r failed before after hrows hf hb => ?_, fun h ho => ?_⟩, fun b payload st => ⟨fun r => ?_, ?_⟩,
    fun via s h => ⟨fun b kind rest hk => ?_, fun b kind rest hk hl => ?_, fun kind rest h1 h9 h3 h7 => ?_, fun hv => ?_, ?_, ?_, ?_, ?_⟩,
    fun b s h => ?_⟩
  · exact exec_refused hc hp h (FirstOf.of_split hf before (hrows ▸ firstFailure_rows b payload s.station) hb)
  · obtain ⟨serve, hx⟩ := exec_request hc hp s
    rw [hx, takeRequest_overrun h b payload serve ho]
  · refine ⟨(firstFailure_rows b payload st).split, ?_⟩
    rintro ⟨before, failed, after, hrows, hf, hb⟩
    exact FirstOf.of_split hf before (hrows ▸ firstFailure_rows b payload st) hb
  · exact (firstFailure_rows b payload st).none_iff
  · refine exec_badKindRequest h (.inl ?_)
    rw [kindListed, Bool.and_eq_false_iff, decide_eq_false_iff_not, decide_eq_false_iff_not]
    omega
  · refine exec_badKindRequest h (.inr (.inl ?_))
    have : bytesNeeded (kind :: rest) = 6 := by rcases hk with rfl | rfl <;> rfl
    omega
  · refine exec_badKindRequest h (.inr (.inr ?_))
    simpa [destinationOk] using ⟨h3, h7⟩
  · refine ⟨fun hr port pairs reach av intr => ⟨?_, ?_⟩, fun hr port pairs reach av intr h3 => ?_,
      fun hr port pairs reach av intr h2 h12 => ?_,
      fun hp item v => ?_, fun hp => ?_, fun port grade h1 h2 => ?_, fun port h12 => ⟨?_, ?_⟩, fun page h3 => ?_⟩
    · exact exec_refused (c := .measure via port pairs reach av intr) rfl (by simp) h
        (by simp [firstFailure, byteAt, kindListed, bytesNeeded, destinationOk, hv, phaseRefusal, hr])
    · exact exec_refused (c := .sweep via port pairs reach av intr) rfl (by simp) h
        (by simp [firstFailure, byteAt, kindListed, bytesNeeded, destinationOk, hv, phaseRefusal, hr])
    · have hreach : (reachOf reach).isSome = false := by rw [reachOf_isSome, decide_eq_false_iff_not]; omega
      exact exec_refused (c := .measure via port pairs reach av intr) rfl (by simp) h
        (by simp [firstFailure, byteAt, kindListed, bytesNeeded, destinationOk, hv, phaseRefusal, hr, codedOk, hreach])
    · have hreach : (reachOf reach).isSome = true := by rw [reachOf_isSome, decide_eq_true_iff]; exact h2
      exact exec_refused (c := .measure via port pairs reach av intr) rfl (by simp) h
        (by simp [firstFailure, byteAt, kindListed, bytesNeeded, destinationOk, hv, phaseRefusal, hr, codedOk, hreach, gradeOk, portOk,
          portOperand, h12])
    · have hbytes : ¬via.extra.length + 1 + 1 + 1 + 1 + 1 < setupBytes item := by
        simp only [setupBytes]
        split_ifs <;> omega
      by_cases hl : s.station.locked = true
      · rw [if_pos hl]
        exact exec_refused (c := .setup via item [v, v, v]) rfl (by simp) h
          (by simp [firstFailure, byteAt, kindListed, bytesNeeded, destinationOk, hv, phaseRefusal, hp, hbytes, hl])
      · rw [if_neg hl]
        exact exec_refused (c := .setup via item [v, v, v]) rfl (by simp) h
          (by simp [firstFailure, byteAt, kindListed, bytesNeeded, destinationOk, hv, phaseRefusal, hp, hbytes, hl])
    · exact exec_refused (c := .calibrate via) rfl (by simp) h
        (by simp [firstFailure, byteAt, kindListed, bytesNeeded, destinationOk, hv, phaseRefusal, hp])
    · have hgrade : ¬grade = 1#8 ∧ ¬grade = 2#8 := ⟨h1, h2⟩
      have hlen : ¬via.extra.length + 1 + 1 + 1 + 1 < 3 := by omega
      exact exec_refused (c := .force via port grade) rfl (by simp) h
        (by simp [firstFailure, byteAt, kindListed, bytesNeeded, trainBytes, destinationOk, hv, phaseRefusal, codedOk, gradeOk, hgrade,
          hlen])
    · exact exec_refused (c := .restart via port) rfl (by simp) h
        (by simp [firstFailure, byteAt, kindListed, bytesNeeded, trainBytes, destinationOk, hv, phaseRefusal, codedOk, gradeOk, portOk,
          portOperand, h12])
    · exact exec_refused (c := .queryLength via port) rfl (by simp) h
        (by simp [firstFailure, byteAt, kindListed, bytesNeeded, queryBytes, destinationOk, hv, phaseRefusal, codedOk, gradeOk, portOk,
          portOperand, h12])
    · have hpage : 2 < page.toNat := h3
      have hlen : ¬via.extra.length + 1 + 1 + 1 < 3 := by omega
      exact exec_refused (c := .queryStation via page) rfl (by simp) h
        (by simp [firstFailure, byteAt, kindListed, bytesNeeded, queryBytes, destinationOk, hv, phaseRefusal, codedOk, gradeOk, portOk,
          portOperand, pageOk, hpage, hlen])
  · intro hp hl
    exact exec_refused (c := .lock via) rfl (by simp) h
      (by simp [firstFailure, byteAt, kindListed, bytesNeeded, destinationOk, phaseRefusal, hp, hl])
  · rfl
  · intro kind a ha
    exact if_neg ha
  · intro kind a
    rfl
  · exact congrArg Host.Outcome.next (if_pos ((canTake_iff s).2 h))

end Sys2Proof.Machine
end

section
/-! PROOF of O38: the pages of the queries, and the event summary. -/

namespace Sys2Proof.Machine

open Sys2Proof

/-! ### A query that passes the checks is answered with its page (R173, R177) -/

section
variable {via : Via} {s : State}

theorem query_passes {query : Byte} {rest : List Byte} (hv : via.broadcast = false) (hq : query.toNat ≤ 7)
    (hlen : queryBytes query ≤ 2 + rest.length) (hport : 1 ≤ query.toNat ∧ query.toNat ≤ 5 → (byteAt rest 0).toNat < 12)
    (hpair : query = 4 → (pairOf (byteAt rest 1)).isSome = true)
    (hpage : pageOk (5 :: query :: rest) = true) : firstFailure via.broadcast ([5, query] ++ rest) s.station = none := by
  have hneed : ¬rest.length + 1 + 1 < queryBytes query := by omega
  have hcoded : codedOk (5#8 :: query :: rest) = true := by
    by_cases h4 : query = 4#8
    · simpa [codedOk, byteAt, h4] using hpair h4
    · simp [codedOk, byteAt, hq, h4]
  have hportOk : portOk (5#8 :: query :: rest) = true := by
    by_cases h : 1 ≤ query.toNat ∧ query.toNat ≤ 5
    · simpa [portOk, portOperand, byteAt, h] using hport h
    · simp [portOk, portOperand, byteAt, h]
  change firstFailure via.broadcast (5#8 :: query :: rest) s.station = none
  have hpageOk : pageOk (5#8 :: query :: rest) = true := hpage
  simp [firstFailure, kindListed, bytesNeeded, destinationOk, phaseRefusal, gradeOk, byteAt, hv, hneed, hcoded, hportOk, hpageOk]

variable (h : RequestReady s) (hv : via.broadcast = false) (p : PortId)
include h hv

theorem exec_querySummary : exec (.querySummary via) s =
    .next (reply 5 (.data 0 (summaryPage s.summary)) { frameEnded s with summary := Summary.empty }) :=
  congrArg Host.Outcome.next (takeRequest_answered h _ _ _
    (query_passes (query := 0) (rest := via.extra) hv (by decide) (by rw [show queryBytes 0 = 2 from rfl]; omega) (fun k => absurd k.1 (by decide))
      (fun k => absurd k (by decide)) rfl) rfl)

theorem exec_queryPort {page : Byte} (hp : page.toNat ≤ 4) : exec (.queryPort via (byteOf p.val) page) s =
    .next (reply 5 (.data 1 (portPage page p (frameEnded s))) (frameEnded s)) :=
  congrArg Host.Outcome.next (takeRequest_answered h _ _ _
    (query_passes (query := 1) (rest := [byteOf p.val, page] ++ via.extra) hv (by decide)
      (by rw [show queryBytes 1 = 4 from rfl]; simp only [List.length_append, List.length_cons, List.length_nil]; omega)
      (fun _ => byteOf_port_lt p) (fun k => absurd k (by decide)) (decide_eq_true hp)) (withPort_byteOf _ _ _))

theorem exec_queryCounters {page : Byte} (hp : page.toNat ≤ 1) : exec (.queryCounters via (byteOf p.val) page) s =
    .next (reply 5 (.data 2 (countersPage page p (frameEnded s))) (frameEnded s)) :=
  congrArg Host.Outcome.next (takeRequest_answered h _ _ _
    (query_passes (query := 2) (rest := [byteOf p.val, page] ++ via.extra) hv (by decide)
      (by rw [show queryBytes 2 = 4 from rfl]; simp only [List.length_append, List.length_cons, List.length_nil]; omega)
      (fun _ => byteOf_port_lt p) (fun k => absurd k (by decide)) (decide_eq_true hp)) (withPort_byteOf _ _ _))

theorem exec_queryDiagHead : exec (.queryDiagHead via (byteOf p.val)) s =
    .next (reply 5 (.data 3 (diagHeadPage p (frameEnded s))) (frameEnded s)) :=
  congrArg Host.Outcome.next (takeRequest_answered h _ _ _
    (query_passes (query := 3) (rest := [byteOf p.val] ++ via.extra) hv (by decide)
      (by rw [show queryBytes 3 = 3 from rfl]; simp only [List.length_append, List.length_cons, List.length_nil]; omega)
      (fun _ => byteOf_port_lt p) (fun k => absurd k (by decide)) rfl) (withPort_byteOf _ _ _))

theorem exec_queryEcho (x : Pair) {index : Byte} (hi : index.toNat ≤ 5) : exec (.queryEcho via (byteOf p.val) (pairCode x) index) s =
    .next (reply 5 (.data 4 (echoPage p x index (frameEnded s))) (frameEnded s)) := by
  have hpair : pairOf (pairCode x) = some x := by cases x <;> rfl
  refine congrArg Host.Outcome.next (takeRequest_answered h _ _ _
    (query_passes (query := 4) (rest := [byteOf p.val, pairCode x, index] ++ via.extra) hv (by decide)
      (by rw [show queryBytes 4 = 5 from rfl]; simp only [List.length_append, List.length_cons, List.length_nil]; omega)
      (fun _ => byteOf_port_lt p) (fun _ => Option.isSome_of_eq_some hpair) (decide_eq_true hi)) ?_)
  simp only [serveEcho, hpair]
  exact withPort_byteOf _ _ _

theorem exec_queryLength : exec (.queryLength via (byteOf p.val)) s =
    .next (reply 5 (.data 5 (lengthPage p (frameEnded s))) (frameEnded s)) :=
  congrArg Host.Outcome.next (takeRequest_answered h _ _ _
    (query_passes (query := 5) (rest := [byteOf p.val] ++ via.extra) hv (by decide)
      (by rw [show queryBytes 5 = 3 from rfl]; simp only [List.length_append, List.length_cons, List.length_nil]; omega)
      (fun _ => byteOf_port_lt p) (fun k => absurd k (by decide)) rfl) (withPort_byteOf _ _ _))

theorem exec_queryStation {page : Byte} (hp : page.toNat ≤ 2) : exec (.queryStation via page) s =
    .next (reply 5 (.data 6 (stationPage page (frameEnded s))) (frameEnded s)) :=
  congrArg Host.Outcome.next (takeRequest_answered h _ _ _
    (query_passes (query := 6) (rest := [page] ++ via.extra) hv (by decide)
      (by rw [show queryBytes 6 = 3 from rfl]; simp only [List.length_append, List.length_cons, List.length_nil]; omega)
      (fun k => absurd k.2 (by decide)) (fun k => absurd k (by decide)) (decide_eq_true hp)) rfl)

theorem exec_queryClaimEntry {index : Byte} (hi : index.toNat ≤ 15) : exec (.queryClaimEntry via index) s =
    .next (reply 5 (.data 7 (claimEntryPage index (frameEnded s))) (frameEnded s)) :=
  congrArg Host.Outcome.next (takeRequest_answered h _ _ _
    (query_passes (query := 7) (rest := [index] ++ via.extra) hv (by decide)
      (by rw [show queryBytes 7 = 3 from rfl]; simp only [List.length_append, List.length_cons, List.length_nil]; omega)
      (fun k => absurd k.2 (by decide)) (fun k => absurd k (by decide)) (decide_eq_true hi)) rfl)

end

/-! ### The pages (Tables 10-5 to 10-7) -/

theorem optByte_eq {α : Type} (f : α → Byte) (o : Option α) : optByte f o = (o.map f).getD 255 := by cases o <;> rfl

theorem optWord_eq {α : Type} (f : α → List Byte) (o : Option α) : optWord f o = (o.map f).getD [255, 255] := by cases o <;> rfl

theorem yesNoByte_eq : yesNoByte = fun b => if b then 0 else 1 := rfl

/-- A criterion that depends on others is dormant when none of them is enabled (R47). -/
theorem criterionCode_eq (on dependent : Bool) (c : Criteria) :
    criterionCode (if dependent then dormantStatus on (criteriaDormant c) else plainStatus on) =
      if !on then 0 else if dependent && !(c.symbolErrors || c.energyLoss) then 2 else 1 := by
  have hd : criteriaDormant c = !(c.symbolErrors || c.energyLoss) := rfl
  rw [hd]
  generalize (c.symbolErrors || c.energyLoss) = b
  revert on dependent b
  decide

section
variable {s : State} {p : PortId}

theorem portPage4_eq : portPage4 p s = byteOf p.val :: watchCode (s.port p).watch.condition ::
    [((s.criteria p).symbolErrors, false), ((s.criteria p).idleErrors, false), ((s.criteria p).marginDips, true),
      ((s.criteria p).energyLoss, false), ((s.criteria p).lockLoss, true)].map (fun (on, dependent) =>
        if !on then 0 else if dependent && !((s.criteria p).symbolErrors || (s.criteria p).energyLoss) then 2 else 1) := by
  simp only [List.map_cons, List.map_nil, ← criterionCode_eq]
  rfl

theorem portPage1_eq : portPage1 p s = byteOf p.val :: [((s.port p).res.abCrossed.map (fun b => if b then 0 else 1)).getD 255,
    ((s.port p).res.cdCrossed.map (fun b => if b then 0 else 1)).getD 255,
    setByte [(s.port p).res.polarity.a.isSome, (s.port p).res.polarity.b.isSome, (s.port p).res.polarity.c.isSome,
      (s.port p).res.polarity.d.isSome],
    setByte [(s.port p).res.polarity.a.getD false, (s.port p).res.polarity.b.getD false,
      (s.port p).res.polarity.c.getD false, (s.port p).res.polarity.d.getD false],
    setByte [((s.port p).res.missing.map PerPair.a).getD false, ((s.port p).res.missing.map PerPair.b).getD false,
      ((s.port p).res.missing.map PerPair.c).getD false, ((s.port p).res.missing.map PerPair.d).getD false],
    healthCode (s.port p).train.health.a, healthCode (s.port p).train.health.b, healthCode (s.port p).train.health.c,
    healthCode (s.port p).train.health.d, ((s.port p).train.lastFailure.map failureCode).getD 255,
    ((s.port p).train.lastDrop.map dropCode).getD 255] := by
  have hpol : ∀ o : Option Bool, (o == some true) = o.getD false := by decide
  have hmissing : pairSetByte ((s.port p).res.missing.getD PairSet.none) =
      setByte [((s.port p).res.missing.map PerPair.a).getD false, ((s.port p).res.missing.map PerPair.b).getD false,
        ((s.port p).res.missing.map PerPair.c).getD false, ((s.port p).res.missing.map PerPair.d).getD false] := by
    cases (s.port p).res.missing <;> rfl
  simp only [portPage1, hmissing, hpol, ← yesNoByte_eq, ← optByte_eq]
  rfl

theorem pairWords_eq (v : PerPair (Option Nat)) : pairWords v = [v.a, v.b, v.c, v.d].flatMap (fun q => (q.map wordBytes).getD [255, 255]) := by
  rw [pairWords, PerPair.toList]
  exact congrArg (fun f => List.flatMap f _) (funext fun q => optWord_eq wordBytes q)

theorem diagHeadPage_none (hr : (s.port p).store.record = none) : diagHeadPage p s =
    [byteOf p.val, 0, 0, 255, 255, 255, 255, optByte attemptCode (s.port p).store.attempt, 255, 255, 255, 255] := by
  simp only [diagHeadPage, hr]; rfl

theorem diagHeadPage_some {r : Record} (hr : (s.port p).store.record = some r) : diagHeadPage p s =
    [byteOf p.val] ++ count16Bytes r.sequence ++ [originCode r.origin, recordOutcomeCode r.outcome, reachCode r.reach,
      byteOf (averagingCount r.averaging), optByte attemptCode (s.port p).store.attempt, verdictCode r.pairs.a.verdict,
      verdictCode r.pairs.b.verdict, verdictCode r.pairs.c.verdict, verdictCode r.pairs.d.verdict] := by
  simp only [diagHeadPage, hr, List.append_assoc]; rfl

theorem echoPage_some {r : Record} (hr : (s.port p).store.record = some r) (x : Pair) (index : Byte) : echoPage p x index s =
    [byteOf p.val, pairCode x] ++ count16Bytes r.sequence ++ echoFields (r.pairs.get x) index := by
  simp only [echoPage, hr]; rfl

theorem echoPage_none (hr : (s.port p).store.record = none) (x : Pair) (index : Byte) : echoPage p x index s =
    [byteOf p.val, pairCode x, 0, 0] ++ (if index = 5 then absentPairPage else absentEntryPage) := by
  simp only [echoPage, hr]; rfl

theorem ne_five_of_lt {index : Byte} (h : index.toNat < 5) : index ≠ 5 := by
  rintro rfl; exact absurd h (by decide)

theorem echoFields_head (r : PairResult) : echoFields r 5 = [verdictCode r.verdict] ++ (r.distance.map wordBytes).getD [255, 255] ++
    (r.launch.map signedWordBytes).getD [128, 0] ++ [if r.truncated then 0 else 1, byteOf r.echoes.length] := by
  rw [← optWord_eq]
  cases hl : r.launch <;> simp only [echoFields, if_true, echoPairPage, hl] <;> rfl

theorem echoFields_none {r : PairResult} {index : Byte} (h : index.toNat < 5) (he : r.echoes.length ≤ index.toNat) :
    echoFields r index = [255, 255, 128, 0, 128, 255, 255] := by
  have hn : r.echoes[index.toNat]? = none := List.getElem?_eq_none he
  simp only [echoFields, if_neg (ne_five_of_lt h), hn]; rfl

theorem echoDetail_eq (e : Echo) : echoDetail e = if e.cls = .junction then (e.junction.map byteOf).getD 255
    else if e.cls = .crossShort then (e.partner.map pairCode).getD 255 else 255 := by
  rw [← optByte_eq, ← optByte_eq]
  cases h : e.cls <;> simp [echoDetail, h, absentByte]

theorem echoFields_some {r : PairResult} {index : Byte} {e : Echo} (h : index.toNat < 5) (he : r.echoes[index.toNat]? = some e) :
    echoFields r index = wordBytes e.distance ++ signedWordBytes e.amplitude ++ [signedByte e.ratio,
      echoClassCode e.cls + (if e.positive then 0 else 8) + (if e.clamped then 16 else 0),
      if e.cls = .junction then (e.junction.map byteOf).getD 255
      else if e.cls = .crossShort then (e.partner.map pairCode).getD 255 else 255] := by
  simp only [echoFields, if_neg (ne_five_of_lt h), he, echoEntryPage, echoDetail_eq]; rfl

theorem lengthPage_none (h : (s.port p).train.state ≠ .up ∨ (s.port p).train.grade.any fourPairGrade = false) :
    lengthPage p s = [byteOf p.val, 0, 255, 255, 255, 255, 255, 255, 255, 255, 0] := by
  have hno : lengthsOf p s = none := by
    refine if_neg fun k => ?_
    obtain ⟨k1, k2⟩ := Bool.and_eq_true_iff.1 k
    rcases h with h | h
    · exact h (Port.isIn_iff.1 k1)
    · exact absurd ((show (s.port p).atFourPair = false from h).symm.trans k2) Bool.false_ne_true
  simp only [lengthPage, hno]; rfl

theorem lengthPage_some {a b c d : Nat} {v : Vector (Option PortCal) 12} {cal : PortCal} (hu : (s.port p).train.state = .up)
    (hg : (s.port p).train.grade.any fourPairGrade = true) (hq : (s.port p).res.qp = ⟨some a, some b, some c, some d⟩)
    (hc : s.station.calibration = some v) (hp : v[p.val] = some cal) {w : Nat → Nat → Nat × Bool}
    (hw : ∀ q q0, w q q0 = walkDistance s.setup.delay s.setup.segments[p.val] ((q - 96 - q0) * 250)) :
    lengthPage p s = [byteOf p.val, 1] ++ wordBytes (w a cal.q0.a).1 ++ wordBytes (w b cal.q0.b).1 ++
      wordBytes (w c cal.q0.c).1 ++ wordBytes (w d cal.q0.d).1 ++
      [setByte [(w a cal.q0.a).2, (w b cal.q0.b).2, (w c cal.q0.c).2, (w d cal.q0.d).2]] := by
  have hcal : calibrationOf p s = cal := by simp only [calibrationOf, hc, hp]; rfl
  have hqp : allQp (s.port p).res = some ⟨a, b, c, d⟩ := by simp only [allQp, hq]
  have hlen : ∀ x q, pairLength p s x q = w q (cal.q0.get x) := fun x q => by rw [hw, pairLength, hcal]; rfl
  have hyes : lengthsOf p s = some ⟨w a cal.q0.a, w b cal.q0.b, w c cal.q0.c, w d cal.q0.d⟩ := by
    have hif : ((s.port p).isIn .up && (s.port p).atFourPair) = true := Bool.and_eq_true_iff.2 ⟨Port.isIn_iff.2 hu, hg⟩
    simp only [lengthsOf, hif, hqp, if_true, PerPair.ofFn, hlen]
    rfl
  simp only [lengthPage, hyes, PerPair.toList, List.flatMap_cons, List.flatMap_nil, List.append_nil, List.append_assoc]
  rfl

theorem stationPage0_eq : stationPage0 s = [stationPhaseCode s.station.phase, if s.station.locked then 1 else 0,
    lineConditionCode s.line.condition, if s.line.duplicate then 1 else 0, if s.budget.paced then 1 else 0, byteOf s.queue.length,
    byteOf (s.line.list.length + 1), phaseCode (s.chan 0).phase, ((s.chan 0).claim.map (fun l => claimStateCode l.state)).getD 255,
    phaseCode (s.chan 1).phase, ((s.chan 1).claim.map (fun l => claimStateCode l.state)).getD 255, byteOf s.view.length] := by
  simp only [stationPage0, channelBytes, optByte_eq]; rfl

theorem stationPage2_none (hf : s.sweep.fields = none) : stationPage2 s = count16Bytes s.unknownReleases ++
    [sweepStatusCode s.sweep.status, s.sweep.tag, 255, 255, 255, 255, 255, 255] := by
  simp only [stationPage2, hf, List.append_assoc]; rfl

theorem stationPage2_some {f : SweepFields} (hf : s.sweep.fields = some f) : stationPage2 s = count16Bytes s.unknownReleases ++
    [sweepStatusCode s.sweep.status, s.sweep.tag] ++ portSetBytes f.ports ++ [reachCode f.reach,
      byteOf (averagingCount f.averaging), byteOf f.period, (s.sweep.cursor.map (fun c => byteOf c.val)).getD 255] := by
  simp only [stationPage2, hf, optByte_eq, List.append_assoc]; rfl

theorem claimEntryPage_none {index : Byte} (h : s.view.length ≤ index.toNat) : claimEntryPage index s =
    [index, 255, 255, 255, 255, 255, 255, 255, 255] := by
  have hn : s.view[index.toNat]? = none := List.getElem?_eq_none h
  simp only [claimEntryPage, hn]; rfl

theorem claimEntryPage_some {index : Byte} {v : ViewEntry} (h : s.view[index.toNat]? = some v) : claimEntryPage index s =
    [index, byteOf v.station.val, v.number, if v.active then 1 else 0, byteOf v.target.val, priorityCode v.priority,
      byteOf v.duration] ++ wordBytes ((v.expiry - s.now) / 64) := by
  simp only [claimEntryPage, h]; rfl

end

/-! ### Bytes (Table 10-2) -/

theorem setByte_cons_of_lt (b : Bool) {bs : List Bool} (h : (setByte bs).toNat < 128) :
    (setByte (b :: bs)).toNat = (if b then 1 else 0) + 2 * (setByte bs).toNat := by
  cases b <;> simp only [setByte, BitVec.toNat_add, BitVec.toNat_mul] <;> simp <;> omega

theorem setByte_lt (bs : List Bool) (h : bs.length ≤ 8) : (setByte bs).toNat < 2 ^ bs.length := by
  induction bs with
  | nil => decide
  | cons b bs ih =>
    simp only [List.length_cons] at h
    have hlt := ih (by omega)
    have hpow : 2 ^ bs.length ≤ 2 ^ 7 := Nat.pow_le_pow_right (by decide) (by omega)
    rw [setByte_cons_of_lt b (by omega), List.length_cons, Nat.pow_succ]
    split <;> omega

theorem setByte_cons (b : Bool) (bs : List Bool) (h : bs.length < 8) :
    (setByte (b :: bs)).toNat = (if b then 1 else 0) + 2 * (setByte bs).toNat :=
  setByte_cons_of_lt b (Nat.lt_of_lt_of_le (setByte_lt bs (by omega)) (Nat.pow_le_pow_right (n := 2) (by decide) (show bs.length ≤ 7 by omega)))

theorem wordBytes_toNat {n : Nat} (h : n < 65536) : (wordBytes n).map BitVec.toNat = [n / 256, n % 256] := by
  simp [wordBytes, byteOf_toNat (show n / 256 < 256 by omega), byteOf_toNat (show n % 256 < 256 by omega)]

/-! ### Events (R131, R132) -/

/-- An event that the summary holds leaves it as it is. -/
theorem Summary.add_of_has {m : Summary} {e : Event} (h : m.has e = true) : m.add e = m := by
  have hset : ∀ {v : PortSet} {p : PortId}, v.has p = true → v.insert p = v := fun {v p} hp => by
    have hself := Vector.set_getElem_self (xs := v) p.isLt
    rwa [show v[p.val] = true from hp] at hself
  cases e with
  | linkUp p => simp only [Summary.add, hset h]
  | linkDown p => simp only [Summary.add, hset h]
  | diagDone p => simp only [Summary.add, hset h]
  | downshift p => simp only [Summary.add, hset h]
  | trainFailed p => simp only [Summary.add, hset h]
  | calFault => simp only [Summary.add, ← show m.calFault = true from h]
  | selfLocked => simp only [Summary.add, ← show m.selfLocked = true from h]
  | duplicateStation => simp only [Summary.add, ← show m.duplicate = true from h]
  | lineStuck => simp only [Summary.add, ← show m.lineStuck = true from h]
  | requestOverrun => simp only [Summary.add, ← show m.overrun = true from h]

theorem raise_places (e : Event) (s : State) : raise e s = { s with
    summary := s.summary.add e
    line := { s.line with list :=
      if s.summary = Summary.empty ∧ (∀ f ∈ s.line.list, f.kind ≠ .alert) then insertFrame ⟨.alert, [], none, false⟩ s.line.list
      else s.line.list } } := by
  have hnone : (s.summary = Summary.empty ∧ ∀ f ∈ s.line.list, f.kind ≠ .alert) ↔
      (s.summary = Summary.empty ∧ countKind .alert s.line.list = 0) := and_congr .rfl countKind_eq_zero.symm
  rw [raise_eq, if_congr hnone rfl rfl]

/-- Settles O38: each query's page, and the events. -/
theorem queriesReportAndChangeNothingElse : Obligations.QueriesReportAndChangeNothingElse := by
  unfold Obligations.QueriesReportAndChangeNothingElse
  refine ⟨fun via p s h hv => ⟨exec_querySummary h hv, fun page bytes hmem => ?_, exec_queryCounters h hv p (by decide),
    exec_queryCounters h hv p (by decide), fun hr => ⟨?_, fun x => ⟨?_, fun index hi => ?_⟩⟩,
    fun r hr => ⟨?_, fun x => ⟨?_, fun index hi => ⟨fun hl => ?_, fun e he => ?_⟩⟩⟩, fun hno => ?_,
    fun a b c d v cal hu hg hq hc hp w hw => ?_, ?_, exec_queryStation h hv (by decide), fun hf => ?_, fun f hf => ?_,
    fun index hi => ⟨fun hl => ?_, fun v hl => ?_⟩⟩, fun st => rfl, setByte_cons, fun n c hn => ⟨wordBytes_toNat hn, rfl⟩,
    fun e s => ⟨raise_places e s, fun x => ?_, Summary.empty_has e, Summary.add_of_has⟩⟩
  · simp only [List.mem_cons, List.not_mem_nil, or_false, Prod.mk.injEq] at hmem
    rcases hmem with ⟨rfl, rfl⟩ | ⟨rfl, rfl⟩ | ⟨rfl, rfl⟩ | ⟨rfl, rfl⟩ | ⟨rfl, rfl⟩
    · rw [exec_queryPort h hv p (by decide), show portPage 0 p (frameEnded s) = portPage0 p s from rfl]
      simp only [portPage0, optByte_eq]
      rfl
    · rw [exec_queryPort h hv p (by decide), show portPage 1 p (frameEnded s) = portPage1 p s from rfl, portPage1_eq]
    · rw [exec_queryPort h hv p (by decide), ← pairWords_eq]; rfl
    · rw [exec_queryPort h hv p (by decide), ← pairWords_eq]; rfl
    · rw [exec_queryPort h hv p (by decide), show portPage 4 p (frameEnded s) = portPage4 p s from rfl, portPage4_eq]
  · rw [exec_queryDiagHead h hv, diagHeadPage_none (s := frameEnded s) hr]; rfl
  · rw [exec_queryEcho h hv p x (by decide), echoPage_none (s := frameEnded s) hr]; rfl
  · rw [exec_queryEcho h hv p x (by omega), echoPage_none (s := frameEnded s) hr, if_neg (ne_five_of_lt hi)]; rfl
  · rw [exec_queryDiagHead h hv, diagHeadPage_some (s := frameEnded s) hr]; rfl
  · rw [exec_queryEcho h hv p x (by decide), echoPage_some (s := frameEnded s) hr, echoFields_head]
    simp only [List.append_assoc]
  · rw [exec_queryEcho h hv p x (by omega), echoPage_some (s := frameEnded s) hr, echoFields_none hi hl]
  · rw [exec_queryEcho h hv p x (by omega), echoPage_some (s := frameEnded s) hr, echoFields_some hi he]
    simp only [List.append_assoc]
  · rw [exec_queryLength h hv, lengthPage_none (s := frameEnded s) hno]
  · rw [exec_queryLength h hv, lengthPage_some (s := frameEnded s) hu hg hq hc hp hw]
  · rw [exec_queryStation h hv (by decide), show stationPage 0 (frameEnded s) = stationPage0 (frameEnded s) from rfl, stationPage0_eq]
    rfl
  · rw [exec_queryStation h hv (by decide), show stationPage 2 (frameEnded s) = stationPage2 (frameEnded s) from rfl,
      stationPage2_none (s := frameEnded s) hf]; rfl
  · rw [exec_queryStation h hv (by decide), show stationPage 2 (frameEnded s) = stationPage2 (frameEnded s) from rfl,
      stationPage2_some (s := frameEnded s) hf]; rfl
  · rw [exec_queryClaimEntry h hv hi, claimEntryPage_none (s := frameEnded s) hl]
  · rw [exec_queryClaimEntry h hv hi, claimEntryPage_some (s := frameEnded s) hl]; rfl
  · rw [Summary.has_add]; simp

end Sys2Proof.Machine
end

section
/-! PROOF of O57: the segment walk against the exact sum of the delays. -/

namespace Sys2Proof.Machine

open Sys2Proof

/-! ### The walk over stretches -/

/-- The sum tau takes the delay of each stretch over its length from d on, and `last` beyond them. -/
def Fits (tau : Nat → Nat) : Nat → Nat → List Stretch → Prop
  | d, last, [] => 0 < last ∧ ∀ k, d ≤ k → tau (k + 1) = tau k + last
  | d, _, s :: ss => 0 < s.delay ∧ (∀ k, d ≤ k → k < d + s.length → tau (k + 1) = tau k + s.delay) ∧ Fits tau (d + s.length) s.delay ss

/-- A sum that grows by a constant. -/
theorem sum_of_steps {tau : Nat → Nat} {d n c : Nat} (h : ∀ k, d ≤ k → k < d + n → tau (k + 1) = tau k + c) :
    ∀ m, m ≤ n → tau (d + m) = tau d + m * c := by
  intro m hm
  induction m with
  | zero => simp
  | succ m ih =>
    rw [← Nat.add_assoc, h (d + m) (by omega) (by omega), ih (by omega), Nat.succ_mul, Nat.add_assoc]

/-- Within a stretch the walk stops where the sum has used up what is left. -/
theorem stop_in_stretch {tau : Nat → Nat} {d n c rem : Nat} (hc : 0 < c) (h : ∀ k, d ≤ k → k < d + n → tau (k + 1) = tau k + c)
    (hrem : rem < n * c) : tau (d + rem / c) ≤ tau d + rem ∧ tau d + rem < tau (d + rem / c + 1) := by
  have hlt : rem / c < n := Nat.div_lt_of_lt_mul (by rwa [Nat.mul_comm] at hrem)
  rw [h (d + rem / c) (Nat.le_add_right _ _) (Nat.add_lt_add_left hlt d), sum_of_steps h (rem / c) (Nat.le_of_lt hlt)]
  have h1 := Nat.div_mul_le_self rem c
  have h2 := Nat.lt_div_mul_add (a := rem) hc
  omega

theorem walkFrom_exact {tau : Nat → Nat} (ss : List Stretch) : ∀ {d rem last : Nat}, Fits tau d last ss →
    tau (walkFrom d rem last ss) ≤ tau d + rem ∧ tau d + rem < tau (walkFrom d rem last ss + 1) := by
  induction ss with
  | nil =>
    rintro d rem last ⟨hlast, h⟩
    refine stop_in_stretch (n := rem + 1) hlast (fun k hk _ => h k hk) ?_
    calc rem < rem + 1 := Nat.lt_succ_self _
      _ ≤ (rem + 1) * last := Nat.le_mul_of_pos_right _ hlast
  | cons s ss ih =>
    rintro d rem last ⟨hs, h, hrest⟩
    rw [walkFrom]
    by_cases hrem : rem < s.length * s.delay
    · rw [if_pos hrem]
      exact stop_in_stretch hs h hrem
    · rw [if_neg hrem]
      have hsum := sum_of_steps h s.length (Nat.le_refl _)
      have := ih (rem := rem - s.length * s.delay) hrest
      rw [hsum] at this
      omega

theorem le_walkFrom (ss : List Stretch) : ∀ d rem last, d ≤ walkFrom d rem last ss := by
  induction ss with
  | nil => intro d rem last; exact Nat.le_add_right _ _
  | cons s ss ih =>
    intro d rem last
    rw [walkFrom]
    split
    · exact Nat.le_add_right _ _
    · exact (Nat.le_add_right _ _).trans (ih _ _ _)

/-- A longer time walks at least as far (R112). -/
theorem walkFrom_mono (ss : List Stretch) : ∀ {d rem rem' last : Nat}, rem ≤ rem' → walkFrom d rem last ss ≤ walkFrom d rem' last ss := by
  induction ss with
  | nil => intro d rem rem' last h; exact Nat.add_le_add_left (Nat.div_le_div_right h) _
  | cons s ss ih =>
    intro d rem rem' last h
    rw [walkFrom, walkFrom]
    by_cases h' : rem' < s.length * s.delay
    · rw [if_pos h', if_pos (by omega)]
      exact Nat.add_le_add_left (Nat.div_le_div_right h) _
    · rw [if_neg h']
      by_cases h1 : rem < s.length * s.delay
      · rw [if_pos h1]
        have hlt : rem / s.delay < s.length := Nat.div_lt_of_lt_mul (by rwa [Nat.mul_comm] at h1)
        exact (Nat.add_le_add_left (Nat.le_of_lt hlt) d).trans (le_walkFrom _ _ _ _)
      · rw [if_neg h1]
        exact ih (by omega)

/-! ### The stretches of a table (R111) -/

/-- The sum takes the delay of each segment between its boundaries, and `last`, that of the last populated one, from there on. -/
def Rates (delays : Vector Nat 8) (tau : Nat → Nat) : Nat → Nat → List Segment → Prop
  | before, last, [] => 0 < last ∧ ∀ k, before ≤ k → tau (k + 1) = tau k + last
  | before, last, s :: ss => before ≤ s.boundary ∧ 0 < delayOf delays s.cls ∧
      (∀ k, before ≤ k → k < s.boundary → tau (k + 1) = tau k + delayOf delays s.cls) ∧
      Rates delays tau s.boundary (if before < s.boundary then delayOf delays s.cls else last) ss

theorem Rates.fits {delays : Vector Nat 8} {tau : Nat → Nat} (ss : List Segment) : ∀ {before last : Nat} (i : Nat),
    Rates delays tau before last ss → Fits tau before last (stretchesFrom delays i before ss) := by
  induction ss with
  | nil => intro before last i h; exact h
  | cons s ss ih =>
    rintro before last i ⟨hle, hpos, hstep, hrest⟩
    rw [stretchesFrom]
    by_cases hlt : before < s.boundary
    · rw [if_pos hlt] at hrest ⊢
      have hend : before + (s.boundary - before) = s.boundary := by omega
      refine ⟨hpos, fun k h1 h2 => hstep k h1 (by rwa [hend] at h2), ?_⟩
      change Fits tau (before + (s.boundary - before)) _ _
      rw [hend]
      exact ih _ hrest
    · rw [if_neg hlt] at hrest ⊢
      have heq : s.boundary = before := by omega
      rw [heq] at hrest ⊢
      exact ih _ hrest

section
variable {delays : Vector Nat 8} {table : Vector Segment 4}

theorem delayOf_class {cls : Nat} {k : Fin 8} (h : cls = k.val) : delayOf delays cls = delays[k] := by
  subst h
  rw [delayOf, List.getD_eq_getElem?_getD, List.getElem?_eq_getElem (by simp)]
  simp

theorem delayOf_pos (hd : ∀ i : Fin 8, 3500 ≤ delays[i]) {cls : Nat} (hc : cls ≤ 7) : 0 < delayOf delays cls := by
  rw [delayOf_class (k := ⟨cls, by omega⟩) rfl]
  have := hd ⟨cls, by omega⟩
  omega

/-- The rates of a table, from the delay of each decimetre. -/
theorem rates_of_table (hd : ∀ i : Fin 8, 3500 ≤ delays[i]) (ht : TableOk table) {tau : Nat → Nat}
    (hstep : ∀ (d : Nat) (i : Fin 4) (k : Fin 8), table[i].cls = k.val →
      (d < table[i].boundary ∨ table[i].boundary = table[3].boundary) →
      (∀ j : Fin 4, j < i → table[j].boundary ≤ d ∧ table[j].boundary ≠ table[3].boundary) → tau (d + 1) = tau d + delays[k]) :
    Rates delays tau 0 (delayOf delays table[0].cls) table.toList := by
  obtain ⟨⟨h01, h12, h23, -⟩, c0, c1, c2, c3⟩ := (tableOk_iff table).1 ht
  have step : ∀ (d : Nat) (i : Fin 4), (d < table[i].boundary ∨ table[i].boundary = table[3].boundary) →
      (∀ j : Fin 4, j < i → table[j].boundary ≤ d ∧ table[j].boundary ≠ table[3].boundary) →
      tau (d + 1) = tau d + delayOf delays table[i].cls := fun d i h1 h2 => by
    have hc : table[i].cls ≤ 7 := ht.2.2.2.2 i
    have hlt : table[i].cls < 8 := by omega
    rw [delayOf_class (k := ⟨table[i].cls, hlt⟩) rfl]
    exact hstep d i ⟨table[i].cls, hlt⟩ rfl h1 h2
  have s0 : ∀ d, (d < table[0].boundary ∨ table[0].boundary = table[3].boundary) →
      tau (d + 1) = tau d + delayOf delays table[0].cls := fun d h => step d 0 h (fun j hj => absurd hj (Fin.not_lt_zero j))
  have s1 : ∀ d, (d < table[1].boundary ∨ table[1].boundary = table[3].boundary) → table[0].boundary ≤ d →
      table[0].boundary ≠ table[3].boundary → tau (d + 1) = tau d + delayOf delays table[1].cls := fun d h a b =>
    step d 1 h (fun j hj => by
      obtain rfl : j = 0 := by omega
      exact ⟨a, b⟩)
  have s2 : ∀ d, (d < table[2].boundary ∨ table[2].boundary = table[3].boundary) → table[1].boundary ≤ d →
      table[1].boundary ≠ table[3].boundary → tau (d + 1) = tau d + delayOf delays table[2].cls := fun d h a b =>
    step d 2 h (fun j hj => by
      have b0 : table[0].boundary ≠ table[3].boundary := by omega
      obtain rfl | rfl : j = 0 ∨ j = 1 := by omega
      · exact ⟨Nat.le_trans h01 a, b0⟩
      · exact ⟨a, b⟩)
  have s3 : ∀ d, table[2].boundary ≤ d → table[2].boundary ≠ table[3].boundary →
      tau (d + 1) = tau d + delayOf delays table[3].cls := fun d a b =>
    step d 3 (.inr rfl) (fun j hj => by
      have b0 : table[0].boundary ≠ table[3].boundary := by omega
      have b1 : table[1].boundary ≠ table[3].boundary := by omega
      obtain rfl | rfl | rfl : j = 0 ∨ j = 1 ∨ j = 2 := by omega
      · exact ⟨Nat.le_trans h01 (Nat.le_trans h12 a), b0⟩
      · exact ⟨Nat.le_trans h12 a, b1⟩
      · exact ⟨a, b⟩)
  have p0 := delayOf_pos hd c0
  have p1 := delayOf_pos hd c1
  have p2 := delayOf_pos hd c2
  have p3 := delayOf_pos hd c3
  have hlist : table.toList = [table[0], table[1], table[2], table[3]] := by
    obtain ⟨⟨l⟩, hl⟩ := table
    match l, hl with
    | [a, b, c, d], _ => rfl
  rw [hlist]
  refine ⟨Nat.zero_le _, p0, fun k _ hk => s0 k (.inl hk), h01, p1, fun k h1 h2 => s1 k (.inl h2) h1 (by omega), h12, p2,
    fun k h1 h2 => s2 k (.inl h2) h1 (by omega), h23, p3, fun k h1 h2 => s3 k h1 (by omega), ?_, fun k hk => ?_⟩
  · split_ifs <;> assumption
  · split_ifs with hb3 hb2 hb1
    · exact s3 k (by omega) (by omega)
    · exact s2 k (.inr (by omega)) (by omega) (by omega)
    · exact s1 k (.inr (by omega)) (by omega) (by omega)
    · exact s0 k (.inr (by omega))
    · exact s0 k (.inr (by omega))

end

/-- Settles O57: the walk stops where the exact sum has used up the time. -/
theorem segmentWalkIsExactAndNeverDecreases : Obligations.SegmentWalkIsExactAndNeverDecreases := by
  unfold Obligations.SegmentWalkIsExactAndNeverDecreases
  intro delays table hd ht
  refine ⟨fun tau h0 hstep t => ?_, fun t u htu => walkFrom_mono _ (Nat.mul_le_mul_left 10 htu), fun q q0 => ?_, fun t => ?_⟩
  · have h := walkFrom_exact (rem := 10 * t) _ (Rates.fits _ 0 (rates_of_table hd ht hstep))
    rwa [h0, Nat.zero_add] at h
  · rw [oneWayTime]
    by_cases h : q ≤ q0
    · rw [if_pos h, Nat.sub_eq_zero_of_le h, Nat.zero_mul]
    · rw [if_neg h]
  · rw [walkDistance, clampDistance]
    by_cases h : segmentWalk delays table t ≤ 4095
    · rw [if_pos h, if_neg (by omega)]
    · rw [if_neg h, if_pos (by omega)]

end Sys2Proof.Machine
end

section
/-! PROOF of O60: the records, offsets and pace of calibration. -/

namespace Sys2Proof.Machine

open Sys2Proof

/-! ### The sums of the shots, slot by slot (R91, R92) -/

/-- The sum vector that slot 0 to 3 of a repetition feeds. -/
def slotSums (v : PerPhase (List Int)) : Nat → List Int
  | 0 => v.k0
  | 1 => v.k2
  | 2 => v.k1
  | _ => v.k3

theorem slotSums_update (v : PerPhase (List Int)) (f : List Int → List Int) {slot slot' : Nat} (h : slot < 4) (h' : slot' < 4) :
    slotSums (updatePhase v (slotPhase slot') f) slot = if slot' = slot then f (slotSums v slot) else slotSums v slot := by
  interval_cases slot <;> interval_cases slot' <;> rfl

/-- The digitized sample of a shot at a tick, 0 where the input ends. -/
def shotSample (t : Nat) (shot : List Int) : Int := max (-2048) (min 2047 (shot.getD t 0))

/-- What the shots fired from shot index i on add to a slot's sum at a tick. -/
def slotTotal (t slot : Nat) : Nat → List (List Int) → Int
  | _, [] => 0
  | i, shot :: shots => (if i % 4 = slot then shotSample t shot else 0) + slotTotal t slot (i + 1) shots

theorem addSamples_map (w : Nat) (a : Nat → Int) (shot : List Int) :
    addSamples ((List.range w).map a) (captureSamples w shot) = (List.range w).map (fun t => a t + shotSample t shot) := by
  rw [addSamples, captureSamples_eq, List.zipWith_map, List.zipWith_self]
  rfl

theorem sumShots_slot (w slot : Nat) (h : slot < 4) (shots : List (List Int)) : ∀ (i : Nat) (acc : PerPhase (List Int)) (a : Nat → Int),
    slotSums acc slot = (List.range w).map a →
    slotSums (sumShots w i shots acc) slot = (List.range w).map (fun t => a t + slotTotal t slot i shots) := by
  induction shots with
  | nil => intro i acc a ha; simpa [sumShots, slotTotal] using ha
  | cons shot shots ih =>
    intro i acc a ha
    have hupd := slotSums_update acc (fun v => addSamples v (captureSamples w shot)) h (Nat.mod_lt i (by decide))
    rw [sumShots]
    by_cases hi : i % 4 = slot
    · rw [if_pos hi, ha, addSamples_map] at hupd
      rw [ih _ _ _ hupd]
      simp only [slotTotal, if_pos hi, Int.add_assoc]
    · rw [if_neg hi, ha] at hupd
      rw [ih _ _ _ hupd]
      simp only [slotTotal, if_neg hi, Int.zero_add]

theorem shotSample_nil (t : Nat) : shotSample t [] = 0 := rfl

/-- The first shot, whether the input holds it or not (assumption log 15). -/
theorem slotTotal_succ (t slot i n : Nat) (shots : List (List Int)) : slotTotal t slot i (shots.take (n + 1)) =
    (if i % 4 = slot then shotSample t (shots.getD 0 []) else 0) + slotTotal t slot (i + 1) ((shots.drop 1).take n) := by
  cases shots with
  | nil => simp [slotTotal, shotSample_nil]
  | cons shot shots => rfl

/-- Four shots in a row feed each slot once. -/
theorem slotTotal_repetition {t slot : Nat} (h : slot < 4) (k n : Nat) (shots : List (List Int)) :
    slotTotal t slot (4 * k) (shots.take (n + 4)) =
      shotSample t (shots.getD slot []) + slotTotal t slot (4 * (k + 1)) ((shots.drop 4).take n) := by
  have h0 : 4 * k % 4 = 0 := by omega
  have h1 : (4 * k + 1) % 4 = 1 := by omega
  have h2 : (4 * k + 1 + 1) % 4 = 2 := by omega
  have h3 : (4 * k + 1 + 1 + 1) % 4 = 3 := by omega
  have hnext : 4 * k + 1 + 1 + 1 + 1 = 4 * (k + 1) := by omega
  rw [slotTotal_succ, slotTotal_succ, slotTotal_succ, slotTotal_succ, h0, h1, h2, h3, hnext]
  simp only [List.drop_drop, List.getD_eq_getElem?_getD, List.getElem?_drop]
  interval_cases slot <;> simp

theorem slotTotal_repetitions {t slot : Nat} (h : slot < 4) (m : Nat) : ∀ (k : Nat) (shots : List (List Int)),
    slotTotal t slot (4 * k) (shots.take (4 * m)) =
      ((List.range m).map (fun j => shotSample t (shots.getD (4 * j + slot) []))).sum := by
  induction m with
  | zero => intro k shots; rfl
  | succ m ih =>
    intro k shots
    rw [Nat.mul_succ, slotTotal_repetition h, ih, List.range_succ_eq_map, List.map_cons, List.sum_cons, List.map_map, Nat.mul_zero,
      Nat.zero_add]
    have hshift : ∀ j, (shots.drop 4).getD (4 * j + slot) [] = shots.getD (4 * (j + 1) + slot) [] := fun j => by
      rw [List.getD_eq_getElem?_getD, List.getD_eq_getElem?_getD, List.getElem?_drop]
      congr 2
      omega
    simp only [hshift]
    rfl

/-- The record of 64 shots: the averages of each slot's 16 shots (R185). -/
theorem slotSums_average (w : Nat) (shots : List (List Int)) {slot : Nat} (h : slot < 4) :
    slotSums (averageSums 16 (sumShots w 0 (shots.take 64) (zeroSums w))) slot = (List.range w).map (fun t =>
      Int.tdiv (((List.range 16).map (fun j => shotSample t (shots.getD (4 * j + slot) []))).sum) 16) := by
  have hzero : slotSums (zeroSums w) slot = (List.range w).map (fun _ => 0) := by
    interval_cases slot <;> simp [slotSums, zeroSums, PerPhase.const]
  have havg : ∀ v : PerPhase (List Int), slotSums (averageSums 16 v) slot = (slotSums v slot).map (fun x => Int.tdiv x 16) := fun v => by
    interval_cases slot <;> rfl
  have htotal : ∀ t, slotTotal t slot 0 (shots.take 64) =
      ((List.range 16).map (fun j => shotSample t (shots.getD (4 * j + slot) []))).sum := fun t =>
    slotTotal_repetitions h 16 0 shots
  rw [havg, sumShots_slot w slot h _ 0 _ _ hzero, List.map_map]
  simp only [htotal, Function.comp_def, Int.zero_add]

theorem calibrationRecord_spec (reach : Reach) (shots : List (List Int)) {w : Nat} (hw : captureWindow reach = w) :
    (calibrationRecord reach shots).length = 4 * w ∧
    ∀ (t k slot : Nat), t < w → (k, slot) ∈ [(0, 0), (1, 2), (2, 1), (3, 3)] →
      (calibrationRecord reach shots)[4 * t + k]? = some (Int.tdiv (((List.range 16).map (fun j =>
        max (-2048) (min 2047 ((shots.getD (4 * j + slot) []).getD t 0)))).sum) 16) := by
  subst hw
  have havg := fun {slot} (h : slot < 4) => slotSums_average (captureWindow reach) shots h
  have hlen : ∀ {slot}, slot < 4 → (slotSums (averageSums 16 (sumShots (captureWindow reach) 0 (shots.take 64)
      (zeroSums (captureWindow reach)))) slot).length = captureWindow reach := fun h => by rw [havg h]; simp
  obtain ⟨hlength, hget⟩ := Distance.interleaveLists_spec (captureWindow reach) _ _ _ _ (hlen (slot := 0) (by decide))
    (hlen (slot := 2) (by decide))
    (hlen (slot := 1) (by decide)) (hlen (slot := 3) (by decide))
  refine ⟨hlength, fun t k slot ht hk => ?_⟩
  have hentry : ∀ {slot}, slot < 4 → (slotSums (averageSums 16 (sumShots (captureWindow reach) 0 (shots.take 64)
      (zeroSums (captureWindow reach)))) slot)[t]? = some (Int.tdiv (((List.range 16).map (fun j =>
        max (-2048) (min 2047 ((shots.getD (4 * j + slot) []).getD t 0)))).sum) 16) := fun h => by
    rw [havg h, List.getElem?_map, List.getElem?_range ht]; rfl
  obtain ⟨g0, g1, g2, g3⟩ := hget t ht
  simp only [List.mem_cons, List.not_mem_nil, or_false, Prod.mk.injEq] at hk
  rcases hk with ⟨rfl, rfl⟩ | ⟨rfl, rfl⟩ | ⟨rfl, rfl⟩ | ⟨rfl, rfl⟩
  · exact g0.trans (hentry (slot := 0) (by decide))
  · exact g1.trans (hentry (slot := 2) (by decide))
  · exact g2.trans (hentry (slot := 1) (by decide))
  · exact g3.trans (hentry (slot := 3) (by decide))

/-! ### The launch offset (R185 step 4) -/

theorem le_foldl_max (xs : List Int) : ∀ a : Int, a ≤ xs.foldl max a ∧ ∀ v ∈ xs, v ≤ xs.foldl max a := by
  induction xs with
  | nil => intro a; exact ⟨le_refl _, by simp⟩
  | cons x xs ih =>
    intro a
    obtain ⟨h1, h2⟩ := ih (max a x)
    exact ⟨(le_max_left a x).trans h1, List.forall_mem_cons.2 ⟨(le_max_right a x).trans h1, h2⟩⟩

theorem foldl_max_mem (xs : List Int) : ∀ a : Int, xs.foldl max a ∈ a :: xs := by
  induction xs with
  | nil => intro a; exact List.mem_cons_self ..
  | cons x xs ih =>
    intro a
    rcases List.mem_cons.1 (ih (max a x)) with h | h
    · rcases max_choice a x with k | k
      · exact List.mem_cons.2 (.inl (h.trans k))
      · exact List.mem_cons.2 (.inr (List.mem_cons.2 (.inl (h.trans k))))
    · exact List.mem_cons_of_mem _ (List.mem_cons_of_mem _ h)

/-- The greatest value of a list is the member that none exceeds. -/
theorem greatest_eq {l : List Int} {top : Int} (hle : ∀ v ∈ l, v ≤ top) (hmem : top ∈ l) : greatest l = top := by
  cases l with
  | nil => cases hmem
  | cons x xs =>
    refine le_antisymm (hle _ (foldl_max_mem xs x)) ?_
    rcases List.mem_cons.1 hmem with h | h
    · rw [h]; exact (le_foldl_max xs x).1
    · exact (le_foldl_max xs x).2 _ h

theorem firstAtLeast_spec {m : Int} (l : List Int) : ∀ i, (∃ v ∈ l, m ≤ v) →
    ∃ n v, firstAtLeast m i l = i + n ∧ l[n]? = some v ∧ m ≤ v ∧
    ∀ k u, k < n → l[k]? = some u → u < m := by
  induction l with
  | nil => rintro i ⟨v, hv, -⟩; cases hv
  | cons x xs ih =>
    intro i h
    rw [firstAtLeast]
    by_cases hx : m ≤ x
    · exact ⟨0, x, if_pos hx, rfl, hx, fun k u hk => absurd hk (Nat.not_lt_zero k)⟩
    · have hxs : ∃ v ∈ xs, m ≤ v := by
        obtain ⟨v, hv, hm⟩ := h
        rcases List.mem_cons.1 hv with rfl | hv
        · exact absurd hm hx
        · exact ⟨v, hv, hm⟩
      obtain ⟨n, v, hn, hget, hm, hbefore⟩ := ih (i + 1) hxs
      refine ⟨n + 1, v, by rw [if_neg hx, hn]; omega, hget, hm, fun k u hk hu => ?_⟩
      cases k with
      | zero => cases hu; exact not_le.1 hx
      | succ k => exact hbefore k u (by omega) hu

theorem calibrationQ0_spec {full record : List Int} {top : Int} (hr : record = full.take 128) (hle : ∀ v ∈ record, v ≤ top)
    (hmem : top ∈ record) : (top ≤ 0 → calibrationQ0 full = 127) ∧
    (0 < top → ∃ v, record[calibrationQ0 full]? = some v ∧ Int.tdiv top 2 ≤ v ∧
      ∀ i u, i < calibrationQ0 full → record[i]? = some u → u < Int.tdiv top 2) := by
  have hq : calibrationQ0 full = if top ≤ 0 then 127 else firstAtLeast (Int.tdiv top 2) 0 record := by
    rw [calibrationQ0, ← hr, greatest_eq hle hmem]
  refine ⟨fun h => hq.trans (if_pos h), fun h => ?_⟩
  have hhalf : Int.tdiv top 2 ≤ top := by rw [Int.tdiv_eq_ediv_of_nonneg (le_of_lt h)]; omega
  obtain ⟨n, v, hn, hget, hm, hbefore⟩ := firstAtLeast_spec record 0 ⟨top, hmem, hhalf⟩
  rw [hq, if_neg (not_le.2 h), hn, Nat.zero_add]
  exact ⟨v, hget, hm, hbefore⟩

theorem PerPair.map_get {α β : Type} (f : α → β) (v : PerPair α) (x : Pair) : (v.map f).get x = f (v.get x) := by cases x <;> rfl

/-! ### The pace of calibration (R185 step 2) -/

theorem pairAt_eq {shot : Nat} (h : shot < 768) : Pair.all.getD (shot / 192) .A =
    if shot < 192 then .A else if shot < 384 then .B else if shot < 576 then .C else .D := by
  have hpair : shot / 192 = if shot < 192 then 0 else if shot < 384 then 1 else if shot < 576 then 2 else 3 := by
    split_ifs <;> omega
  rw [hpair]
  split_ifs <;> rfl

theorem calibrationPulse_eq (elapsed : Nat) {shot : Nat} (hs : shot = elapsed % 12288 / 16) : calibrationPulse elapsed =
    if elapsed % 16 = 4 then some (.pulse
      (if shot < 192 then .A else if shot < 384 then .B else if shot < 576 then .C else .D)
      (if shot % 192 < 64 then 4 else if shot % 192 < 128 then 8 else 16)) else none := by
  have hlt : shot < 768 := by omega
  rw [calibrationPulse, portCalibration, ← hs]
  dsimp only
  rw [pairAt_eq hlt]
  by_cases h4 : elapsed % 16 = 4
  · rw [if_pos h4, if_pos h4]
    congr 2
    split_ifs <;> rfl
  · rw [if_neg h4, if_neg h4]

theorem underCalibration_iff {st : Station} {p : PortId} (h : st.phase = .calibrating) : underCalibration st p = true ↔
    p.val < populationCount st.population ∧ st.calibrating.elapsed / 12288 = p.val := by
  simp only [underCalibration, h, populated, Bool.and_eq_true, decide_eq_true_eq, beq_self_eq_true, true_and]
  rfl

/-- On an empty queue with nothing due the step is the clock (assumption log 1). -/
theorem step_advance {s : State} (hs : s.pending = []) (hdue : due s = none) : step s = .next (advance s) := by
  simp [step, hs, idleStep, hdue]

/-- Settles O60: the records by slot, the offset, the mark, and the clock of a port. -/
theorem calibrationMeasuresEveryPort : Obligations.CalibrationMeasuresEveryPort := by
  unfold Obligations.CalibrationMeasuresEveryPort
  refine ⟨fun reach shots w hw => calibrationRecord_spec reach shots (by rw [hw]; cases reach <;> rfl),
    fun input x record top hr hle hmem => ?_, fun cal => ?_, fun p s t elapsed shot hs hdue hphase he hshot hstep on hon => ?_⟩
  · have hq : (calibratePort input).q0.get x = calibrationQ0 (calibrationRecord .short (input.get x).short) :=
      PerPair.map_get _ input x
    rw [hq]
    obtain ⟨h1, h2⟩ := calibrationQ0_spec hr hle hmem
    exact ⟨h1, h2, PerPair.map_get _ input x⟩
  · simp [calFaulty, PerPair.toList]
  · obtain rfl : advance s = t := Host.Outcome.next.inj ((step_advance hs hdue).symm.trans hstep)
    have hticked : (tickStation s.station).phase = .calibrating := hphase
    have hunder : underCalibration (tickStation s.station) p = on := by
      rw [Bool.eq_iff_iff, underCalibration_iff hticked, hon, he]
      exact Iff.rfl
    have hpulse := calibrationPulse_eq elapsed hshot
    have hfront : ((advance s).port p).front = calibrateTick (tickStation s.station) p (s.port p).front := by rw [advance_port]; rfl
    have helapsed : (tickStation s.station).calibrating.elapsed = elapsed := he.symm
    rw [hfront, calibrateTick, if_pos hticked, hunder, helapsed, hpulse]
    refine ⟨rfl, fun hyes h4 => ?_, fun hno => ?_⟩
    · rw [if_pos h4, hyes]
    · rcases hno with hno | hno
      · rw [hno]
      · rw [if_neg hno]; cases on <;> rfl

end Sys2Proof.Machine
end

section
/-! PROOF of O59: the classes, the verdict and the form of a pair result. -/

namespace Sys2Proof.Machine.Distance

open Sys2Proof Sys2Proof.Machine

/-! ### Magnitudes of amplitude and ratio (R114, R115) -/

theorem natAbs_clampInt (c : Nat) (x : Int) : (clampInt (-(c : Int)) c x).natAbs = min c x.natAbs := by
  rw [clampInt_eq_max_min (by omega)]
  omega

theorem natAbs_compensated (alpha d : Nat) (peak : Int) :
    (compensated alpha d peak).natAbs = min 2047 (peak.natAbs * (256 + alpha * d / 16) / 256) := by
  refine (natAbs_clampInt 2047 _).trans ?_
  rw [Int.natAbs_tdiv, Int.natAbs_mul]
  congr 2

theorem natAbs_ratioOf (ac launch : Int) : (ratioOf ac launch).natAbs = min 64 (ac.natAbs * 64 / launch.natAbs) := by
  refine (natAbs_clampInt 64 _).trans ?_
  rw [Int.natAbs_tdiv, Int.natAbs_mul]
  rfl

/-- A greater peak at the same distance has a ratio at least as great in magnitude. -/
theorem natAbs_ratio_mono {alpha d : Nat} {p p' launch : Int} (h : p.natAbs ≤ p'.natAbs) :
    (ratioOf (compensated alpha d p) launch).natAbs ≤ (ratioOf (compensated alpha d p') launch).natAbs := by
  simp only [natAbs_ratioOf, natAbs_compensated]
  have h1 : p.natAbs * (256 + alpha * d / 16) / 256 ≤ p'.natAbs * (256 + alpha * d / 16) / 256 :=
    Nat.div_le_div_right (Nat.mul_le_mul_right _ h)
  exact min_le_min_left _ (Nat.div_le_div_right (Nat.mul_le_mul_right _ (min_le_min_left _ h1)))

/-! ### The working list (R116, R117) -/

section
variable {st : EchoSettings} {launch : Int}

/-- An echo of the working list: weighed from its own peak, within the clamp, and not discarded. -/
structure Weighed (st : EchoSettings) (launch : Int) (e : WorkEcho) : Prop where
  amplitude : e.amplitude = compensated st.alpha e.distance e.peak
  ratio : e.ratio = ratioOf e.amplitude launch
  distance : e.distance ≤ 4095
  strong : st.mismatch ≤ e.ratio.natAbs

theorem walkDistance_le (delays : Vector Nat 8) (table : Vector Segment 4) (t : Nat) : (walkDistance delays table t).1 ≤ 4095 := by
  simp only [walkDistance, clampDistance]
  split
  · exact le_refl _
  · exact Nat.not_lt.1 ‹_›

theorem weighed_discardWeak (q0 : Nat) (l : List RawEcho) : ∀ e ∈ discardWeak st (l.map (weighEcho st q0 launch)), Weighed st launch e := by
  intro e he
  obtain ⟨hmem, hstrong⟩ := List.mem_filter.1 he
  obtain ⟨x, -, rfl⟩ := List.mem_map.1 hmem
  exact ⟨rfl, rfl, walkDistance_le _ _ _, of_decide_eq_true hstrong⟩

/-- The kept echo's distance stays, and its ratio does not shrink. -/
theorem Weighed.merge {kept later : WorkEcho} (h : Weighed st launch kept) : Weighed st launch (mergeEchoes st launch kept later) ∧
    (mergeEchoes st launch kept later).distance = kept.distance := by
  by_cases hlt : kept.peak.natAbs < later.peak.natAbs
  · rw [mergeEchoes_of_lt st launch hlt]
    refine ⟨⟨rfl, rfl, h.distance, h.strong.trans ?_⟩, rfl⟩
    rw [h.ratio, h.amplitude]
    exact natAbs_ratio_mono (Nat.le_of_lt hlt)
  · rw [mergeEchoes_of_le st launch (Nat.not_lt.1 hlt)]
    exact ⟨h, rfl⟩

theorem mergeFrom_spec (es : List WorkEcho) : ∀ kept, Weighed st launch kept → (∀ e ∈ es, Weighed st launch e) →
    (∀ e ∈ mergeFrom st launch kept es, Weighed st launch e ∧ kept.distance ≤ e.distance) ∧
      (mergeFrom st launch kept es).Pairwise (fun a b => a.distance + 5 ≤ b.distance) := by
  induction es with
  | nil => intro kept hk _; simpa [mergeFrom] using hk
  | cons e es ih =>
    intro kept hk hes
    obtain ⟨he, hes⟩ := List.forall_mem_cons.1 hes
    rw [mergeFrom]
    by_cases hclose : e.distance < kept.distance + 5
    · rw [if_pos hclose]
      obtain ⟨hm, hd⟩ := hk.merge (later := e)
      have := ih _ hm hes
      rwa [hd] at this
    · rw [if_neg hclose]
      obtain ⟨h1, h2⟩ := ih e he hes
      refine ⟨List.forall_mem_cons.2 ⟨⟨hk, le_refl _⟩, fun x hx => ⟨(h1 x hx).1, ?_⟩⟩, List.pairwise_cons.2 ⟨fun x hx => ?_, h2⟩⟩
      · have := (h1 x hx).2; omega
      · have := (h1 x hx).2; omega

theorem mergeClose_spec {l : List WorkEcho} (h : ∀ e ∈ l, Weighed st launch e) :
    (∀ e ∈ mergeClose st launch l, Weighed st launch e) ∧
      (mergeClose st launch l).Pairwise (fun a b => a.distance + 5 ≤ b.distance) := by
  cases l with
  | nil => exact ⟨h, .nil⟩
  | cons e es =>
    obtain ⟨he, hes⟩ := List.forall_mem_cons.1 h
    obtain ⟨h1, h2⟩ := mergeFrom_spec es e he hes
    exact ⟨fun x hx => (h1 x hx).1, h2⟩

/-! ### The class of an echo (R118 to R120) -/

/-- An echo's entry with its class, junction index and cross partner (Table 6-5). -/
def entryOf (e : WorkEcho) (cls : EchoClass) (j : Option Nat) (p : Option Pair) : Echo :=
  ⟨e.distance, e.amplitude, e.ratio, decide (0 < e.peak), cls, e.clamped, j, p⟩

variable {listening : List (Pair × List RawEcho)} {e : WorkEcho}

theorem classifyEcho_junction {s : Stretch} (hs : nearestJunction e.distance (stretches st.delays st.table) = some s)
    (hr : e.ratio.natAbs < st.junctionLimit) : classifyEcho st launch listening e = entryOf e .junction (some s.index) none := by
  simp only [classifyEcho, hs, decide_eq_true hr]; rfl

/-- Without a junction, the cross partner decides, and then the ratio. -/
theorem classifyEcho_else (hno : nearestJunction e.distance (stretches st.delays st.table) = none ∨ st.junctionLimit ≤ e.ratio.natAbs) :
    (∀ x m, e.ratio ≤ -(st.mismatch : Int) → crossPartner st launch e listening = some (x, m) →
      classifyEcho st launch listening e = entryOf e .crossShort none (some x)) ∧
    (-(st.mismatch : Int) < e.ratio ∨ crossPartner st launch e listening = none →
      classifyEcho st launch listening e = entryOf e (classByRatio e.ratio) none none) := by
  have hthen : classifyEcho st launch listening e = if e.ratio ≤ -(st.mismatch : Int) then
        ((crossPartner st launch e listening).map (fun b => entryOf e .crossShort none (some b.1))).getD
          (entryOf e (classByRatio e.ratio) none none)
      else entryOf e (classByRatio e.ratio) none none := by
    have hlimit : st.junctionLimit ≤ e.ratio.natAbs → decide (e.ratio.natAbs < st.junctionLimit) = false := fun h =>
      decide_eq_false (Nat.not_lt.2 h)
    rcases hno with hno | hno
    · cases hc : crossPartner st launch e listening <;> simp only [classifyEcho, hno, hc] <;> rfl
    · cases hn : nearestJunction e.distance (stretches st.delays st.table) <;> cases hc : crossPartner st launch e listening <;>
        simp only [classifyEcho, hlimit hno, hn, hc] <;> rfl
  rw [hthen]
  refine ⟨fun x m hr hc => ?_, fun h => ?_⟩
  · rw [if_pos hr, hc]; rfl
  · by_cases hr : e.ratio ≤ -(st.mismatch : Int)
    · rw [if_pos hr, h.resolve_left (not_lt.2 hr)]; rfl
    · rw [if_neg hr]

/-! ### The nearest junction (R118) -/

theorem nearestJunction_none {d : Nat} (l : List Stretch) : nearestJunction d l = none ↔
    ∀ s ∈ l, ¬(s.junction = true ∧ apart d s.boundary ≤ 15) := by
  induction l with
  | nil => simp [nearestJunction]
  | cons s ss ih =>
    rw [List.forall_mem_cons, ← ih, nearestJunction]
    by_cases h : s.junction = true ∧ apart d s.boundary ≤ 15
    · cases hn : nearestJunction d ss with
      | none => simp [h]
      | some t => by_cases ht : apart d t.boundary < apart d s.boundary <;> simp [h, ht]
    · simp [h]

/-- The nearest, at equal difference the first of the list. -/
theorem nearestJunction_some {d : Nat} (l : List Stretch) (hl : l.Pairwise (fun a b => a.index < b.index)) : ∀ s, nearestJunction d l = some s →
    s ∈ l ∧ (s.junction = true ∧ apart d s.boundary ≤ 15) ∧ ∀ t ∈ l, t.junction = true ∧ apart d t.boundary ≤ 15 →
      apart d s.boundary < apart d t.boundary ∨ (apart d s.boundary = apart d t.boundary ∧ s.index ≤ t.index) := by
  induction l with
  | nil => intro s h; cases h
  | cons x xs ih =>
    obtain ⟨hx, hxs⟩ := List.pairwise_cons.1 hl
    intro s h
    rw [nearestJunction] at h
    by_cases hq : x.junction = true ∧ apart d x.boundary ≤ 15
    · rw [if_pos hq] at h
      cases hn : nearestJunction d xs with
      | none =>
        rw [hn] at h
        cases h
        refine ⟨List.mem_cons_self .., hq, List.forall_mem_cons.2 ⟨fun _ => .inr ⟨rfl, le_refl _⟩, fun t ht hqt => ?_⟩⟩
        exact absurd hqt ((nearestJunction_none xs).1 hn t ht)
      | some y =>
        obtain ⟨hy, hqy, hmin⟩ := ih hxs y hn
        have hlt := hx y hy
        rw [hn] at h
        dsimp only at h
        by_cases hc : apart d y.boundary < apart d x.boundary
        · rw [if_pos hc] at h
          cases h
          exact ⟨List.mem_cons_of_mem _ hy, hqy, List.forall_mem_cons.2 ⟨fun _ => .inl hc, hmin⟩⟩
        · rw [if_neg hc] at h
          cases h
          refine ⟨List.mem_cons_self .., hq, List.forall_mem_cons.2 ⟨fun _ => .inr ⟨rfl, le_refl _⟩, fun t ht hqt => ?_⟩⟩
          have := hx t ht
          rcases hmin t ht hqt with k | k <;> omega
    · rw [if_neg hq] at h
      obtain ⟨hs, hqs, hmin⟩ := ih hxs s h
      exact ⟨List.mem_cons_of_mem _ hs, hqs, List.forall_mem_cons.2 ⟨fun k => absurd k hq, hmin⟩⟩

/-! ### The populated segments (R111) -/

/-- The boundary before entry i. -/
def boundaryBefore (table : Vector Segment 4) (i : Fin 4) : Nat :=
  match i with
  | 0 => 0
  | 1 => table[0].boundary
  | 2 => table[1].boundary
  | 3 => table[2].boundary

/-- Entry i has a segment of its own (R111). -/
def populatedAt (table : Vector Segment 4) (i : Fin 4) : Bool := decide (boundaryBefore table i < table[i].boundary)

/-- Entry i as the walk reads it. -/
def stretchAt (delays : Vector Nat 8) (table : Vector Segment 4) (i : Fin 4) : Stretch :=
  ⟨i.val, table[i].boundary - boundaryBefore table i, delayOf delays table[i].cls, table[i].boundary, table[i].junction⟩

theorem stretches_eq (delays : Vector Nat 8) (table : Vector Segment 4) : stretches delays table =
    (([0, 1, 2, 3] : List (Fin 4)).filter (populatedAt table)).map (stretchAt delays table) := by
  have hlist : table.toList = [table[(0 : Fin 4)], table[(1 : Fin 4)], table[(2 : Fin 4)], table[(3 : Fin 4)]] := by
    obtain ⟨⟨l⟩, hl⟩ := table
    match l, hl with
    | [a, b, c, d], _ => rfl
  have hcons : ∀ (i : Fin 4) (l : List (Fin 4)) (rest : List Stretch), rest = (l.filter (populatedAt table)).map (stretchAt delays table) →
      (if boundaryBefore table i < table[i].boundary then stretchAt delays table i :: rest else rest) =
        ((i :: l).filter (populatedAt table)).map (stretchAt delays table) := by
    rintro i l _ rfl
    by_cases h : boundaryBefore table i < table[i].boundary
    · rw [if_pos h, List.filter_cons_of_pos (show populatedAt table i = true from decide_eq_true h), List.map_cons]
    · rw [if_neg h, List.filter_cons_of_neg (show ¬populatedAt table i = true from fun k => h (of_decide_eq_true k))]
  rw [stretches, hlist]
  exact hcons 0 _ _ (hcons 1 _ _ (hcons 2 _ _ (hcons 3 _ _ rfl)))

theorem mem_stretches {delays : Vector Nat 8} {table : Vector Segment 4} {s : Stretch} : s ∈ stretches delays table ↔
    ∃ i : Fin 4, populatedAt table i = true ∧ stretchAt delays table i = s := by
  have hall : ∀ i : Fin 4, i ∈ ([0, 1, 2, 3] : List (Fin 4)) := by decide
  simp only [stretches_eq, List.mem_map, List.mem_filter, hall, true_and]

theorem stretches_ascend (delays : Vector Nat 8) (table : Vector Segment 4) :
    (stretches delays table).Pairwise (fun a b => a.index < b.index) := by
  rw [stretches_eq, List.pairwise_map]
  have hsorted : ([0, 1, 2, 3] : List (Fin 4)).Pairwise (fun a b => a.val < b.val) := by decide
  exact hsorted.filter _

/-- An entry is populated when every boundary before it is smaller (R111). -/
theorem populatedAt_iff {table : Vector Segment 4} (ht : TableOk table) (i : Fin 4) : populatedAt table i = true ↔
    (∀ j : Fin 4, j < i → table[j].boundary < table[i].boundary) ∧ 0 < table[i].boundary := by
  obtain ⟨h01, h12, h23, -, -⟩ := ht
  rw [populatedAt, decide_eq_true_iff]
  match i with
  | 0 => simp [boundaryBefore]
  | 1 => simp [boundaryBefore]; omega
  | 2 => simp [boundaryBefore, Fin.forall_fin_succ]; omega
  | 3 => simp [boundaryBefore, Fin.forall_fin_succ]; omega

/-! ### The cross partner (R119) -/

/-- The ratio of a listening pair's echo, compensated at the echo's distance (R119). -/
def crossRho (st : EchoSettings) (launch : Int) (e : WorkEcho) (y : RawEcho) : Nat :=
  (ratioOf (compensated st.alpha e.distance y.peak) launch).natAbs

/-- A listening pair's echo within 8 quarter-ticks and at the cross threshold (R119). -/
def CrossHit (st : EchoSettings) (launch : Int) (e : WorkEcho) (y : RawEcho) : Prop :=
  apart y.arrival e.arrival ≤ 8 ∧ st.cross ≤ crossRho st launch e y

theorem crossRatio_hit {y : RawEcho} {ys : List RawEcho} (h : CrossHit st launch e y) : crossRatio st launch e (y :: ys) =
    some (((crossRatio st launch e ys).map (max (crossRho st launch e y))).getD (crossRho st launch e y)) := by
  rw [crossRatio]
  refine (if_pos h).trans ?_
  cases crossRatio st launch e ys <;> rfl

theorem crossRatio_miss {y : RawEcho} {ys : List RawEcho} (h : ¬CrossHit st launch e y) :
    crossRatio st launch e (y :: ys) = crossRatio st launch e ys := by
  rw [crossRatio]
  exact if_neg h

theorem crossRatio_none (ys : List RawEcho) : crossRatio st launch e ys = none ↔ ∀ y ∈ ys, ¬CrossHit st launch e y := by
  induction ys with
  | nil => simp [crossRatio]
  | cons y ys ih =>
    rw [List.forall_mem_cons, ← ih]
    by_cases h : CrossHit st launch e y
    · rw [crossRatio_hit h]; simp [h]
    · rw [crossRatio_miss h]; simp [h]

/-- The greatest ratio of the echoes that qualify. -/
theorem crossRatio_some (ys : List RawEcho) : ∀ m, crossRatio st launch e ys = some m →
    (∃ y ∈ ys, CrossHit st launch e y ∧ crossRho st launch e y = m) ∧
      ∀ y ∈ ys, CrossHit st launch e y → crossRho st launch e y ≤ m := by
  induction ys with
  | nil => intro m h; cases h
  | cons y ys ih =>
    intro m hm
    by_cases h : CrossHit st launch e y
    · rw [crossRatio_hit h] at hm
      cases hr : crossRatio st launch e ys with
      | none =>
        rw [hr] at hm
        cases hm
        exact ⟨⟨y, List.mem_cons_self .., h, rfl⟩, List.forall_mem_cons.2 ⟨fun _ => le_refl _, fun z hz hq =>
          absurd hq ((crossRatio_none ys).1 hr z hz)⟩⟩
      | some n =>
        obtain ⟨⟨z, hz, hq, hzn⟩, hmax⟩ := ih n hr
        rw [hr] at hm
        obtain rfl : max (crossRho st launch e y) n = m := Option.some.inj hm
        refine ⟨?_, List.forall_mem_cons.2 ⟨fun _ => le_max_left _ _, fun w hw hqw => (hmax w hw hqw).trans (le_max_right _ _)⟩⟩
        rcases max_choice (crossRho st launch e y) n with k | k
        · exact ⟨y, List.mem_cons_self .., h, k.symm⟩
        · exact ⟨z, List.mem_cons_of_mem _ hz, hq, hzn.trans k.symm⟩
    · rw [crossRatio_miss h] at hm
      obtain ⟨⟨z, hz, hq, hzn⟩, hmax⟩ := ih m hm
      exact ⟨⟨z, List.mem_cons_of_mem _ hz, hq, hzn⟩, List.forall_mem_cons.2 ⟨fun k => absurd k h, hmax⟩⟩

theorem crossPartner_none (l : List (Pair × List RawEcho)) : crossPartner st launch e l = none ↔
    ∀ a ∈ l, crossRatio st launch e a.2 = none := by
  induction l with
  | nil => simp [crossPartner]
  | cons a l ih =>
    obtain ⟨x, ys⟩ := a
    rw [List.forall_mem_cons, ← ih]
    cases hr : crossRatio st launch e ys <;> cases hp : crossPartner st launch e l <;> simp only [crossPartner, hr, hp]
    · simp
    · simp
    · simp
    · split <;> simp

/-- The listening pair with the greatest ratio, at a tie the first of the list. -/
theorem crossPartner_some (l : List (Pair × List RawEcho)) (hl : l.Pairwise (fun a b => a.1 ≠ b.1)) : ∀ x m,
    crossPartner st launch e l = some (x, m) → (∃ ys, (x, ys) ∈ l ∧ crossRatio st launch e ys = some m) ∧
      ∀ a ∈ l, ∀ m', crossRatio st launch e a.2 = some m' →
        m' < m ∨ (m' = m ∧ (l.map Prod.fst).idxOf x ≤ (l.map Prod.fst).idxOf a.1) := by
  induction l with
  | nil => intro x m h; cases h
  | cons a l ih =>
    obtain ⟨y, ys⟩ := a
    obtain ⟨hy, hl⟩ := List.pairwise_cons.1 hl
    -- the index of a pair of the rest is one more than its index there
    have hidx : ∀ b ∈ l, (((y, ys) :: l).map Prod.fst).idxOf b.1 = (l.map Prod.fst).idxOf b.1 + 1 := fun b hb => by
      rw [List.map_cons, List.idxOf_cons_ne _ (hy b hb)]
    have hself : (((y, ys) :: l).map Prod.fst).idxOf y = 0 := by rw [List.map_cons, List.idxOf_cons_self]
    have rest : ∀ x m, crossPartner st launch e l = some (x, m) →
        (∃ zs, (x, zs) ∈ (y, ys) :: l ∧ crossRatio st launch e zs = some m) ∧ ∀ a ∈ l, ∀ m', crossRatio st launch e a.2 = some m' →
          m' < m ∨ (m' = m ∧ (((y, ys) :: l).map Prod.fst).idxOf x ≤ (((y, ys) :: l).map Prod.fst).idxOf a.1) := fun x m h => by
      obtain ⟨⟨zs, hmem, hzs⟩, hmax⟩ := ih hl x m h
      refine ⟨⟨zs, List.mem_cons_of_mem _ hmem, hzs⟩, fun b hb m' hm' => (hmax b hb m' hm').imp_right fun k => ⟨k.1, ?_⟩⟩
      have hx := hidx (x, zs) hmem
      have hb' := hidx b hb
      simp only at hx
      omega
    intro x m h
    cases hr : crossRatio st launch e ys with
    | none =>
      have h' : crossPartner st launch e l = some (x, m) := by simpa only [crossPartner, hr] using h
      obtain ⟨h1, h2⟩ := rest x m h'
      exact ⟨h1, List.forall_mem_cons.2 ⟨fun m' hm' => absurd (hr.symm.trans hm') (by simp), h2⟩⟩
    | some n =>
      have hown : ∀ m', crossRatio st launch e ys = some m' → m' = n := fun m' hm' => Option.some.inj (hm'.symm.trans hr)
      -- the head wins where no pair of the rest has a greater ratio
      have head : (∀ b ∈ l, ∀ m', crossRatio st launch e b.2 = some m' → m' ≤ n) → (x, m) = (y, n) →
          (∃ zs, (x, zs) ∈ (y, ys) :: l ∧ crossRatio st launch e zs = some m) ∧ ∀ a ∈ (y, ys) :: l, ∀ m',
            crossRatio st launch e a.2 = some m' →
              m' < m ∨ (m' = m ∧ (((y, ys) :: l).map Prod.fst).idxOf x ≤ (((y, ys) :: l).map Prod.fst).idxOf a.1) := fun hle heq => by
        obtain ⟨rfl, rfl⟩ := Prod.mk.inj heq
        refine ⟨⟨ys, List.mem_cons_self .., hr⟩, List.forall_mem_cons.2 ⟨fun m' hm' => .inr ⟨hown m' hm', le_refl _⟩,
          fun b hb m' hm' => ?_⟩⟩
        rcases Nat.lt_or_eq_of_le (hle b hb m' hm') with k | k
        · exact .inl k
        · exact .inr ⟨k, by rw [hself]; exact Nat.zero_le _⟩
      cases hp : crossPartner st launch e l with
      | none =>
        have hnone := (crossPartner_none l).1 hp
        refine head (fun b hb m' hm' => absurd ((hnone b hb).symm.trans hm') (by simp)) ?_
        simpa only [crossPartner, hr, hp, Option.some.injEq, eq_comm] using h
      | some best =>
        obtain ⟨z, k⟩ := best
        obtain ⟨h1, h2⟩ := rest z k hp
        have h' : (if n < k then some (z, k) else some (y, n)) = some (x, m) := by simpa only [crossPartner, hr, hp] using h
        by_cases hlt : n < k
        · rw [if_pos hlt] at h'
          obtain ⟨rfl, rfl⟩ := Prod.mk.inj (Option.some.inj h')
          exact ⟨h1, List.forall_mem_cons.2 ⟨fun m' hm' => .inl (by rw [hown m' hm']; exact hlt), h2⟩⟩
        · rw [if_neg hlt] at h'
          refine head (fun b hb m' hm' => ?_) (Option.some.inj h').symm
          rcases h2 b hb m' hm' with k1 | k1 <;> omega

/-- An echo keeps its fields; a class names a junction index or a cross partner where it has one (Table 6-5). -/
theorem classifyEcho_form (hl : listening.Pairwise (fun a b => a.1 ≠ b.1)) (e : WorkEcho) : ∃ cls j x,
    classifyEcho st launch listening e = entryOf e cls j x ∧ (j.isSome = true ↔ cls = .junction) ∧ (x.isSome = true ↔ cls = .crossShort) ∧
      ∀ y, x = some y → y ∈ listening.map Prod.fst := by
  have hratio : classByRatio e.ratio ≠ .junction ∧ classByRatio e.ratio ≠ .crossShort := by
    unfold classByRatio
    split_ifs <;> decide
  have byRatio : classifyEcho st launch listening e = entryOf e (classByRatio e.ratio) none none → ∃ cls j x,
      classifyEcho st launch listening e = entryOf e cls j x ∧ (j.isSome = true ↔ cls = .junction) ∧ (x.isSome = true ↔ cls = .crossShort) ∧
        ∀ y, x = some y → y ∈ listening.map Prod.fst := fun h =>
    ⟨_, _, _, h, by simpa using hratio.1, by simpa using hratio.2, fun y hy => by cases hy⟩
  have others (hno : nearestJunction e.distance (stretches st.delays st.table) = none ∨ st.junctionLimit ≤ e.ratio.natAbs) :
      ∃ cls j x, classifyEcho st launch listening e = entryOf e cls j x ∧ (j.isSome = true ↔ cls = .junction) ∧
        (x.isSome = true ↔ cls = .crossShort) ∧ ∀ y, x = some y → y ∈ listening.map Prod.fst := by
    obtain ⟨hcross, helse⟩ := classifyEcho_else (launch := launch) (listening := listening) hno
    by_cases hr : e.ratio ≤ -(st.mismatch : Int)
    · cases hp : crossPartner st launch e listening with
      | none => exact byRatio (helse (.inr hp))
      | some best =>
        obtain ⟨⟨ys, hmem, -⟩, -⟩ := crossPartner_some listening hl best.1 best.2 hp
        refine ⟨_, _, _, hcross best.1 best.2 hr hp, by simp, by simp, fun y hy => ?_⟩
        obtain rfl := Option.some.inj hy
        exact List.mem_map.2 ⟨_, hmem, rfl⟩
    · exact byRatio (helse (.inl (not_le.1 hr)))
  cases hn : nearestJunction e.distance (stretches st.delays st.table) with
  | none => exact others (.inl hn)
  | some s =>
    by_cases hlim : e.ratio.natAbs < st.junctionLimit
    · exact ⟨_, _, _, classifyEcho_junction hn hlim, by simp, by simp, fun y hy => by cases hy⟩
    · exact others (.inr (Nat.not_lt.1 hlim))

/-! ### Verdict and pair result (R107, R121, R122) -/

theorem isFaultClass_eq (c : EchoClass) : isFaultClass c = decide (c = .openEnd ∨ c = .short ∨ c = .crossShort) := by
  cases c <;> rfl

theorem isMismatchClass_eq (c : EchoClass) : isMismatchClass c = decide (c = .highZ ∨ c = .lowZ) := by
  cases c <;> rfl

theorem faultVerdict_eq {c : EchoClass} (h : c = .openEnd ∨ c = .short ∨ c = .crossShort) :
    faultVerdict c = if c = .openEnd then .openEnd else if c = .short then .short else .crossShort := by
  rcases h with rfl | rfl | rfl <;> rfl

/-- The nearest fault decides, else the nearest mismatch, else the verdict is GOOD. -/
theorem verdictOf_cases (l : List Echo) :
    (∃ e es, l.filter (fun e => decide (e.cls = .openEnd ∨ e.cls = .short ∨ e.cls = .crossShort)) = e :: es ∧
      (e.cls = .openEnd ∨ e.cls = .short ∨ e.cls = .crossShort) ∧ verdictOf l = (faultVerdict e.cls, some e.distance)) ∨
    (l.filter (fun e => decide (e.cls = .openEnd ∨ e.cls = .short ∨ e.cls = .crossShort)) = [] ∧
      ((∃ e es, l.filter (fun e => decide (e.cls = .highZ ∨ e.cls = .lowZ)) = e :: es ∧ verdictOf l = (.mismatch, some e.distance)) ∨
        (l.filter (fun e => decide (e.cls = .highZ ∨ e.cls = .lowZ)) = [] ∧ verdictOf l = (.good, none)))) := by
  have hfault : l.find? (fun e => isFaultClass e.cls) =
      (l.filter (fun e => decide (e.cls = .openEnd ∨ e.cls = .short ∨ e.cls = .crossShort))).head? := by
    simp only [isFaultClass_eq, List.head?_filter]
  have hmism : l.find? (fun e => isMismatchClass e.cls) = (l.filter (fun e => decide (e.cls = .highZ ∨ e.cls = .lowZ))).head? := by
    simp only [isMismatchClass_eq, List.head?_filter]
  cases hf : l.filter (fun e => decide (e.cls = .openEnd ∨ e.cls = .short ∨ e.cls = .crossShort)) with
  | cons e es =>
    rw [hf] at hfault
    have hmem : e ∈ l.filter (fun e => decide (e.cls = .openEnd ∨ e.cls = .short ∨ e.cls = .crossShort)) := by
      rw [hf]; exact List.mem_cons_self ..
    refine .inl ⟨e, es, rfl, of_decide_eq_true (List.mem_filter.1 hmem).2, ?_⟩
    rw [List.head?_cons] at hfault
    simp only [verdictOf, hfault]
  | nil =>
    rw [hf, List.head?_nil] at hfault
    refine .inr ⟨rfl, ?_⟩
    cases hm : l.filter (fun e => decide (e.cls = .highZ ∨ e.cls = .lowZ)) with
    | cons e es =>
      rw [hm, List.head?_cons] at hmism
      exact .inl ⟨e, es, rfl, by simp only [verdictOf, hfault, hmism]⟩
    | nil =>
      rw [hm, List.head?_nil] at hmism
      exact .inr ⟨rfl, by simp only [verdictOf, hfault, hmism]⟩

/-- A verdict of the list names a distance where it is no GOOD, and is never one of a pair that was not launched or measured. -/
theorem verdictOf_form (l : List Echo) : ((verdictOf l).2.isSome = true ↔
      ((verdictOf l).1 = .openEnd ∨ (verdictOf l).1 = .short ∨ (verdictOf l).1 = .crossShort ∨ (verdictOf l).1 = .mismatch)) ∧
    (verdictOf l).1 ≠ .noLaunch ∧ (verdictOf l).1 ≠ .busy ∧ (verdictOf l).1 ≠ .notMeasured := by
  rcases verdictOf_cases l with ⟨e, es, -, hc, hv⟩ | ⟨-, ⟨e, es, -, hv⟩ | ⟨-, hv⟩⟩
  · rw [hv]
    rcases hc with hc | hc | hc <;> simp [hc, faultVerdict]
  · rw [hv]; simp
  · rw [hv]; simp

end

/-! ### The form of every pair result -/

section
variable {st : EchoSettings} {launch : Int} {listening : List (Pair × List RawEcho)}

theorem listeningPairs_apart (driven : Pair) (f : Pair → List RawEcho) :
    ((listeningPairs driven).map (fun x => (x, f x))).Pairwise (fun a b => a.1 ≠ b.1) := by
  have hall : Pair.all.Pairwise (fun a b => a ≠ b) := by decide
  exact List.pairwise_map.2 (hall.filter _)

/-- The classified echoes of a working list keep its order and ranges. -/
theorem classified_spec {merged : List WorkEcho} (hm : ∀ e ∈ merged, Weighed st launch e)
    (ho : merged.Pairwise (fun a b => a.distance + 5 ≤ b.distance)) (hl : listening.Pairwise (fun a b => a.1 ≠ b.1)) :
    (merged.map (classifyEcho st launch listening)).Pairwise (fun a b => a.distance + 5 ≤ b.distance) ∧
    ∀ e ∈ merged.map (classifyEcho st launch listening), e.distance ≤ 4095 ∧ -2047 ≤ e.amplitude ∧ e.amplitude ≤ 2047 ∧ -64 ≤ e.ratio ∧
      e.ratio ≤ 64 ∧ st.mismatch ≤ e.ratio.natAbs ∧ (e.junction.isSome ↔ e.cls = .junction) ∧ (e.partner.isSome ↔ e.cls = .crossShort) ∧
      ∀ y, e.partner = some y → y ∈ listening.map Prod.fst := by
  have hform := classifyEcho_form (st := st) (launch := launch) hl
  refine ⟨List.pairwise_map.2 (ho.imp fun {a b} hab => ?_), fun e he => ?_⟩
  · obtain ⟨_, _, _, ha, -⟩ := hform a
    obtain ⟨_, _, _, hb, -⟩ := hform b
    rw [ha, hb]
    exact hab
  · obtain ⟨x, hx, rfl⟩ := List.mem_map.1 he
    obtain ⟨cls, j, y, hx', hj, hy, hpartner⟩ := hform x
    have hw := hm x hx
    have hamp : x.amplitude.natAbs ≤ 2047 := by rw [hw.amplitude, natAbs_compensated]; exact min_le_left _ _
    have hrat : x.ratio.natAbs ≤ 64 := by rw [hw.ratio, natAbs_ratioOf]; exact min_le_left _ _
    rw [hx']
    simp only [entryOf]
    exact ⟨hw.distance, by omega, by omega, by omega, by omega, hw.strong, hj, hy, hpartner⟩

end

section
variable (st : EchoSettings) (q0 : Nat) (template : List Int) (w : WorkingSet)

theorem processPair_unlaunched (h : launchAmplitude (interleave (w.samples.get w.driven)) q0 < 256) :
    processPair st q0 template w = noLaunchResult (launchAmplitude (interleave (w.samples.get w.driven)) q0) :=
  if_pos h

/-- A launched pair's result is that of a list in order, each echo in its ranges. -/
theorem processPair_form (h : 256 ≤ launchAmplitude (interleave (w.samples.get w.driven)) q0) : ∃ l : List Echo,
    processPair st q0 template w = resultOf (launchAmplitude (interleave (w.samples.get w.driven)) q0) l ∧
    l.Pairwise (fun a b => a.distance + 5 ≤ b.distance) ∧
    ∀ e ∈ l, e.distance ≤ 4095 ∧ -2047 ≤ e.amplitude ∧ e.amplitude ≤ 2047 ∧ -64 ≤ e.ratio ∧ e.ratio ≤ 64 ∧
      st.mismatch ≤ e.ratio.natAbs ∧ (e.junction.isSome ↔ e.cls = .junction) ∧ (e.partner.isSome ↔ e.cls = .crossShort) ∧
      e.partner ≠ some w.driven := by
  obtain ⟨hm, ho⟩ := mergeClose_spec (weighed_discardWeak (st := st)
    (launch := launchAmplitude (interleave (w.samples.get w.driven)) q0) q0
    (detectEchoes st.detect (q0 + blanking w.reach) (residual (interleave (w.samples.get w.driven)) template)))
  obtain ⟨h1, h2⟩ := classified_spec hm ho (listeningPairs_apart w.driven
    (fun x => detectEchoes st.detect (q0 + blanking w.reach) (interleave (w.samples.get x))))
  refine ⟨_, processPair_of_launched st q0 template w h, h1, fun e he => ?_⟩
  obtain ⟨hd, ha1, ha2, hr1, hr2, hs, hj, hp, hmem⟩ := h2 e he
  refine ⟨hd, ha1, ha2, hr1, hr2, hs, hj, hp, fun hdriven => ?_⟩
  have := hmem _ hdriven
  simp [listeningPairs] at this

end

/-! ### The junction and the cross partner by the spec's conditions -/

theorem apart_eq (d b : Nat) : apart d b = ((b : Int) - d).natAbs := by
  unfold apart; omega

/-- The junction-expected entry nearest to the echo, the lower index at a tie, is the one found (R118). -/
theorem nearestJunction_of_nearest {delays : Vector Nat 8} {table : Vector Segment 4} {d : Nat} {near : Fin 4 → Prop} {i : Fin 4}
    (hnear : ∀ i : Fin 4, near i ↔ populatedAt table i = true ∧ table[i].junction = true ∧ apart d table[i].boundary ≤ 15) (hi : near i)
    (hmin : ∀ j, near j → apart d table[i].boundary < apart d table[j].boundary ∨
      (apart d table[i].boundary = apart d table[j].boundary ∧ i ≤ j)) :
    ∃ s, nearestJunction d (stretches delays table) = some s ∧ s.index = i.val := by
  obtain ⟨hpop, hjun, hclose⟩ := (hnear i).1 hi
  cases hn : nearestJunction d (stretches delays table) with
  | none => exact absurd ⟨hjun, hclose⟩ ((nearestJunction_none _).1 hn _ (mem_stretches.2 ⟨i, hpop, rfl⟩))
  | some s =>
    obtain ⟨hmem, hq, hbest⟩ := nearestJunction_some _ (stretches_ascend delays table) s hn
    obtain ⟨j, hj, rfl⟩ := mem_stretches.1 hmem
    have h1 := hbest _ (mem_stretches.2 ⟨i, hpop, rfl⟩) ⟨hjun, hclose⟩
    have h2 := hmin j ((hnear j).2 ⟨hj, hq⟩)
    refine ⟨_, rfl, ?_⟩
    simp only [stretchAt] at h1 ⊢
    have hle : i ≤ j ↔ i.val ≤ j.val := Iff.rfl
    omega

theorem nearestJunction_of_none {delays : Vector Nat 8} {table : Vector Segment 4} {d : Nat} {near : Fin 4 → Prop}
    (hnear : ∀ i : Fin 4, near i ↔ populatedAt table i = true ∧ table[i].junction = true ∧ apart d table[i].boundary ≤ 15)
    (hno : ∀ i, ¬near i) : nearestJunction d (stretches delays table) = none := by
  refine (nearestJunction_none _).2 fun s hs hq => ?_
  obtain ⟨i, hi, rfl⟩ := mem_stretches.1 hs
  exact hno i ((hnear i).2 ⟨hi, hq⟩)

section
variable {st : EchoSettings} {launch : Int} {listening : List (Pair × List RawEcho)} {e : WorkEcho}

/-- The pair of the hit that no other exceeds, the lower letter at a tie, is the cross partner (R119). -/
theorem crossPartner_of_greatest (hl : listening.Pairwise (fun a b => a.1 ≠ b.1)) {x : Pair} {ys : List RawEcho} {y : RawEcho}
    (hx : (x, ys) ∈ listening) (hy : y ∈ ys) (hit : CrossHit st launch e y)
    (hmax : ∀ x' ys' y', (x', ys') ∈ listening → y' ∈ ys' → CrossHit st launch e y' → crossRho st launch e y' < crossRho st launch e y ∨
      (crossRho st launch e y' = crossRho st launch e y ∧ (listening.map Prod.fst).idxOf x ≤ (listening.map Prod.fst).idxOf x')) :
    ∃ m, crossPartner st launch e listening = some (x, m) := by
  cases hr : crossRatio st launch e ys with
  | none => exact absurd hit ((crossRatio_none ys).1 hr y hy)
  | some n =>
    cases hp : crossPartner st launch e listening with
    | none => exact absurd (hr.symm.trans ((crossPartner_none listening).1 hp _ hx)) (by simp)
    | some best =>
      obtain ⟨z, m⟩ := best
      obtain ⟨⟨zs, hz, hzs⟩, hbest⟩ := crossPartner_some listening hl z m hp
      obtain ⟨⟨v, hv, hvhit, hvm⟩, -⟩ := crossRatio_some zs m hzs
      obtain ⟨-, hn⟩ := crossRatio_some ys n hr
      have hyn := hn y hy hit
      have h1 := hmax z zs v hz hv hvhit
      have h2 := hbest (x, ys) hx n hr
      have hidx : (listening.map Prod.fst).idxOf z = (listening.map Prod.fst).idxOf x := by
        simp only at h2
        omega
      have hzmem : z ∈ listening.map Prod.fst := List.mem_map.2 ⟨(z, zs), hz, rfl⟩
      have hzx : z = x := (List.idxOf_inj hzmem).1 hidx
      exact ⟨m, by rw [hzx]⟩

theorem crossPartner_of_none (hno : ∀ x ys y, (x, ys) ∈ listening → y ∈ ys → ¬CrossHit st launch e y) :
    crossPartner st launch e listening = none :=
  (crossPartner_none listening).2 fun a ha => (crossRatio_none a.2).2 fun y hy => hno a.1 a.2 y ha hy

end

/-- Settles O59: the form of the result, the class of each echo, and the verdict of a list. -/
theorem pairResultsAreClassifiedAndKeepTheirForm : Obligations.PairResultsAreClassifiedAndKeepTheirForm := by
  unfold Obligations.PairResultsAreClassifiedAndKeepTheirForm
  refine ⟨fun st q0 template w r hr => ?_, fun st launch listening e near rho hits hnear hrho hhits ht hl => ?_,
    fun launch l faults hfaults => ?_⟩
  · subst hr
    rcases lt_or_ge (launchAmplitude (interleave (w.samples.get w.driven)) q0) 256 with h | h
    · rw [processPair_unlaunched st q0 template w h]
      exact ⟨Nat.zero_le _, .nil, fun e he => absurd he List.not_mem_nil, by simp [noLaunchResult], fun _ => ⟨rfl, rfl⟩,
        Verdict.noConfusion, Verdict.noConfusion, _, rfl, rfl, ⟨fun _ => h, fun _ => rfl⟩⟩
    · obtain ⟨l, hres, hord, hall⟩ := processPair_form st q0 template w h
      obtain ⟨hdist, hnl, hbusy, hnm⟩ := verdictOf_form l
      rw [hres]
      exact ⟨List.length_take_le _ _, hord.sublist (List.take_sublist _ _), fun e he => hall e (List.mem_of_mem_take he), hdist,
        fun k => absurd k hnl, hbusy, hnm, _, rfl, rfl, ⟨fun k => absurd k hnl, fun k => absurd h (not_le.2 k)⟩⟩
  · have hnear' : ∀ i : Fin 4, near i ↔ populatedAt st.table i = true ∧ st.table[i].junction = true ∧
        apart e.distance st.table[i].boundary ≤ 15 := fun i => by
      rw [hnear, populatedAt_iff ht, apart]
      constructor
      · rintro ⟨h1, h2, h3, h4, h5⟩; exact ⟨⟨h2, h3⟩, h1, by omega⟩
      · rintro ⟨⟨h2, h3⟩, h1, h4⟩; exact ⟨h1, h2, h3, by omega, by omega⟩
    have hrho' : ∀ y, rho y = crossRho st launch e y := fun y => by rw [hrho, crossRho, ratioOf_eq, compensated_eq]
    have hhits' : ∀ x ys y, hits x ys y ↔ (x, ys) ∈ listening ∧ y ∈ ys ∧ CrossHit st launch e y := fun x ys y => by
      rw [hhits, hrho', CrossHit, apart]
      constructor
      · rintro ⟨h1, h2, h3, h4, h5⟩; exact ⟨h1, h2, by omega, h5⟩
      · rintro ⟨h1, h2, h3, h5⟩; exact ⟨h1, h2, by omega, by omega, h5⟩
    refine ⟨fun i hi hlim hmin => ?_, fun hno => ?_⟩
    · simp only [← apart_eq] at hmin
      obtain ⟨s, hs, hidx⟩ := nearestJunction_of_nearest (delays := st.delays) hnear' hi hmin
      rw [classifyEcho_junction hs hlim, hidx]
      rfl
    · obtain ⟨hcross, helse⟩ := classifyEcho_else (launch := launch) (listening := listening)
        (hno.imp_left (nearestJunction_of_none (delays := st.delays) hnear'))
      refine ⟨fun x ys y hr hxy hmax => ?_, fun h => ?_⟩
      · obtain ⟨hx, hy, hit⟩ := (hhits' x ys y).1 hxy
        simp only [hhits', hrho'] at hmax
        obtain ⟨m, hm⟩ := crossPartner_of_greatest hl hx hy hit fun x' ys' y' h1 h2 h3 => hmax x' ys' y' ⟨h1, h2, h3⟩
        exact hcross x m hr hm
      · refine helse (h.imp_right fun hnone => ?_)
        simp only [hhits'] at hnone
        exact crossPartner_of_none fun x ys y h1 h2 h3 => hnone x ys y ⟨h1, h2, h3⟩
  · subst hfaults
    have hdist : (resultOf launch l).distance = (verdictOf l).2 := rfl
    have hverdict : (resultOf launch l).verdict = (verdictOf l).1 := rfl
    rw [hdist, hverdict]
    refine ⟨rfl, rfl, rfl, ?_⟩
    rcases verdictOf_cases l with ⟨e', es', hf', hc, hv⟩ | ⟨hf', ⟨e', es', hm', hv⟩ | ⟨hm', hv⟩⟩
    · rw [hf', hv]
      refine ⟨fun e es hf => ?_, fun e es hf => absurd hf (List.cons_ne_nil _ _),
        fun hf => absurd hf (List.cons_ne_nil _ _)⟩
      cases hf
      exact ⟨rfl, faultVerdict_eq hc⟩
    · rw [hf', hm', hv]
      refine ⟨fun e es hf => absurd hf.symm (List.cons_ne_nil _ _), fun e es _ hm => ?_,
        fun _ hm => absurd hm (List.cons_ne_nil _ _)⟩
      cases hm
      exact ⟨rfl, rfl⟩
    · rw [hf', hm', hv]
      exact ⟨fun e es hf => absurd hf.symm (List.cons_ne_nil _ _),
        fun e es _ hm => absurd hm.symm (List.cons_ne_nil _ _), fun _ _ => ⟨rfl, rfl⟩⟩

end Sys2Proof.Machine.Distance
end
